-- ==== Sys2Proof/Word.lean ====
section
/-! DEFINITION. Word.lean: the widths of the Flare32's data (R8): 32-bit words and addresses, 16-bit
halfwords (instructions are made of them), 8-bit bytes, and the 64-bit pairs `{hi, lo}` and `{rA, rB}`. -/

namespace Sys2Proof

/-- A 32-bit value: a general register, the program counter, an address (R8, R12). -/
abbrev Word := BitVec 32

/-- A 16-bit value: one instruction halfword, or the data of a 16-bit access (R100, R81). -/
abbrev Halfword := BitVec 16

/-- "Bytes are octets" (R8, R70). -/
abbrev Byte := BitVec 8

/-- A 64-bit value `{a, b}` (R292). -/
abbrev DWord := BitVec 64

end Sys2Proof
end

