-- ==== Sys2Proof/Config.lean ====
section
/-! DEFINITION. Config.lean: the parameters that the spec leaves open (R9), as plain data, and the free values:
constants with no body, of which nothing can be proved but what holds whatever they are.

`Params` is held in `State` (field `params`), because `exec` and `step` take no other argument: R9 says that each
parameter "is a named argument of the model", and R61 that none is a field a program can change. The other two of
R9's nine are `DIV0`, the free functions `div0` and `div0Long`, and `RESET_PC`, the constant `resetPc`;
`IRQ_SOURCE` is the pair of fields `irqPending`, `irqSource` of `State`. -/

namespace Sys2Proof.Config

/-- `SHIFT_GE32` (R9, R179, U9): what a shift does with an amount of the operation's width or more. -/
inductive ShiftGe32 where
  /-- The spec's default: the mathematical result of shifting by the whole amount. -/
  | mathematical
  /-- The other behaviour that U9 lists: the amount modulo the operation's width. -/
  | modulo
deriving DecidableEq, Repr

/-- `ZE_SE_RANGE` (R9, R180, U10): what `ze` and `se` do with a bit position outside 0 to 31. -/
inductive ZeSeRange where
  /-- The spec's default: the register is unchanged. -/
  | unchanged
  /-- The other behaviour that U10 lists: `imm[4:0]` is the position. -/
  | lowFive
deriving DecidableEq, Repr

/-- `NARROW_UPPER` (R9, R327 (b), U13): what `lsrb`, `lsrh`, `asrb`, `asrh` leave above the operation's width. -/
inductive NarrowUpper where
  /-- The spec's default, and R330 to R333: the narrow result, extended to 32 bits. -/
  | extended
  /-- The cautious treatment of R327 (b): the upper bits are a free value, `narrowUpperDraw`. -/
  | drawn
deriving DecidableEq, Repr

/-- One backed part of the address space, both ends included (`MEM_MAP`, R72). -/
structure Region where
  first : Word
  last  : Word
deriving DecidableEq, Repr

/-- The parameters of R9 that are data. -/
structure Params where
  /-- `MEM_MAP`: the addresses that hold memory; an access to any other faults `AccessRefused` (R72). -/
  memMap : List Region
  shiftGe32 : ShiftGe32
  zeSeRange : ZeSeRange
  /-- `LPRE_BRANCH_BITS` (R115, U19): the lowest of the 23 consecutive bits of `lpre_imm` a branch uses. -/
  lpreBranchLow : Fin 5
  /-- `SWI_CLEARS_IE` (R342, U21). -/
  swiClearsIe : Bool
  narrowUpper : NarrowUpper
deriving DecidableEq, Repr

/-- All 2^32 addresses (R70). -/
def wholeSpace : Region := { first := 0x00000000#32, last := 0xFFFFFFFF#32 }

/-- R9's column "default". DESIGN CHOICE (log 3): the default of `MEM_MAP` is flat memory over the addresses that the
launch supplies, which is OPEN; here the launch supplies the whole address space. -/
def specDefaults : Params :=
  { memMap := [wholeSpace], shiftGe32 := .mathematical, zeSeRange := .unchanged, lpreBranchLow := 0,
    swiClearsIe := true, narrowUpper := .extended }

/-- `RESET_PC` (R41). DESIGN CHOICE (log 2): the spec gives no value and no default. -/
def resetPc : Word := 0x00000000#32

/-- The four instructions whose 32-bit divisor may be zero (R294). -/
inductive DivOp where
  | udiv | sdiv | umod | smod
deriving DecidableEq, Repr

/-- The four instructions whose 64-bit divisor may be zero (R294). -/
inductive LongDivOp where
  | ludiv | lsdiv | lumod | lsmod
deriving DecidableEq, Repr

/-- `DIV0` for the 32-bit forms: the result, as a function of the operation and the dividend (the divisor is 0).
FREE VALUE (log 6): R294, "takes the result as a configuration function of the operands". -/
opaque div0 : DivOp → Word → Word

/-- `DIV0` for the 64-bit forms, of the operation and the dividend `{hi, lo}`. FREE VALUE (log 6). -/
opaque div0Long : LongDivOp → DWord → DWord

/-- The upper bits after a narrow shift where `NARROW_UPPER` is `drawn`: a fresh value for each count of
`State.draws`. FREE VALUE (log 7): R327 (b), "an unconstrained draw". -/
opaque narrowUpperDraw : Nat → Word

end Sys2Proof.Config
end

