-- ==== Sys2Proof/Syntax.lean ====
section
/-! DEFINITION. Syntax.lean: the instructions of the Flare32, one constructor per row of spec/opcode_table.json, and
the names of the general and special-purpose registers. Fields of an encoded instruction stay bit vectors; register
numbers become register names when they are decoded (R31, R46). -/

namespace Sys2Proof

/-- The sixteen general registers, in the order of R30 and R31: `r0` is number 0, `sp` number 15. -/
inductive Reg where
  | r0 | r1 | r2 | r3 | r4 | r5 | r6 | r7 | r8 | r9 | r10 | r11 | r12 | lr | fp | sp
deriving DecidableEq, Repr

/-- The eight special-purpose registers, in the order of their encodings 0x0 to 0x7 (R46). -/
inductive SReg where
  | flags | hi | lo | ids | ira | ie | ity | sty
deriving DecidableEq, Repr

/-- A 4-bit field that names a special-purpose register. Encodings 0x8 to 0xf are reserved (R49): such a field is no
`SReg`, and an instruction that holds one is not well formed. -/
abbrev SField := BitVec 4

/-- One constructor per row of the opcode table (R118). `rA`, `rB` are the `a` and `b` fields where they name general
registers, `sA`, `sB`, `sC` where they name special-purpose registers; `imm` is the instruction's own immediate field,
before any `pre` or `lpre` widens it. A constructor whose name ends in `F` is the `.f` form of group 2. -/
inductive Instr where
  -- Group 0 (R142, R143)
  | pre (imm : BitVec 12)  -- `pre` (R142)
  | lpre (imm : BitVec 27)  -- `lpre` (R143)
  -- Group 1 (R162 to R177)
  | addImm (rA : Reg) (imm : BitVec 5)  -- `add rA, #simm` (R162)
  | addPcImm (rA : Reg) (imm : BitVec 5)  -- `add rA, pc, #simm` (R163)
  | addSpImm (rA : Reg) (imm : BitVec 5)  -- `add rA, sp, #simm` (R164)
  | addFpImm (rA : Reg) (imm : BitVec 5)  -- `add rA, fp, #simm` (R165)
  | cmpImm (rA : Reg) (imm : BitVec 5)  -- `cmp rA, #simm` (R166)
  | cpyImm (rA : Reg) (imm : BitVec 5)  -- `cpy rA, #simm` (R167)
  | lslImm (rA : Reg) (imm : BitVec 5)  -- `lsl rA, #simm` (R168)
  | lsrImm (rA : Reg) (imm : BitVec 5)  -- `lsr rA, #simm` (R169)
  | asrImm (rA : Reg) (imm : BitVec 5)  -- `asr rA, #simm` (R170)
  | andImm (rA : Reg) (imm : BitVec 5)  -- `and rA, #simm` (R171)
  | orrImm (rA : Reg) (imm : BitVec 5)  -- `orr rA, #simm` (R172)
  | xorImm (rA : Reg) (imm : BitVec 5)  -- `xor rA, #simm` (R173)
  | zeImm (rA : Reg) (imm : BitVec 5)  -- `ze rA, #simm` (R174)
  | seImm (rA : Reg) (imm : BitVec 5)  -- `se rA, #simm` (R175)
  | swiRegImm (rA : Reg) (imm : BitVec 5)  -- `swi rA, #simm` (R176)
  | swiImm (imm : BitVec 5)  -- `swi #simm` (R177)
  -- Group 2 (R195 to R209)
  | add (rA rB : Reg)  -- `add rA, rB` (R195)
  | addF (rA rB : Reg)  -- `add.f rA, rB` (R195)
  | sub (rA rB : Reg)  -- `sub rA, rB` (R196)
  | subF (rA rB : Reg)  -- `sub.f rA, rB` (R196)
  | addSp (rA rB : Reg)  -- `add rA, sp, rB` (R197)
  | addSpF (rA rB : Reg)  -- `add.f rA, sp, rB` (R197)
  | addFp (rA rB : Reg)  -- `add rA, fp, rB` (R198)
  | addFpF (rA rB : Reg)  -- `add.f rA, fp, rB` (R198)
  | cmp (rA rB : Reg)  -- `cmp rA, rB` (R199)
  | cpy (rA rB : Reg)  -- `cpy rA, rB` (R200)
  | cpyF (rA rB : Reg)  -- `cpy.f rA, rB` (R200)
  | lsl (rA rB : Reg)  -- `lsl rA, rB` (R201)
  | lslF (rA rB : Reg)  -- `lsl.f rA, rB` (R201)
  | lsr (rA rB : Reg)  -- `lsr rA, rB` (R202)
  | lsrF (rA rB : Reg)  -- `lsr.f rA, rB` (R202)
  | asr (rA rB : Reg)  -- `asr rA, rB` (R203)
  | asrF (rA rB : Reg)  -- `asr.f rA, rB` (R203)
  | and (rA rB : Reg)  -- `and rA, rB` (R204)
  | andF (rA rB : Reg)  -- `and.f rA, rB` (R204)
  | orr (rA rB : Reg)  -- `orr rA, rB` (R205)
  | orrF (rA rB : Reg)  -- `orr.f rA, rB` (R205)
  | xor (rA rB : Reg)  -- `xor rA, rB` (R206)
  | xorF (rA rB : Reg)  -- `xor.f rA, rB` (R206)
  | adc (rA rB : Reg)  -- `adc rA, rB` (R208)
  | adcF (rA rB : Reg)  -- `adc.f rA, rB` (R208)
  | sbc (rA rB : Reg)  -- `sbc rA, rB` (R209)
  | sbcF (rA rB : Reg)  -- `sbc.f rA, rB` (R209)
  -- Group 3 (R224 to R239)
  | bl (imm : BitVec 9)  -- `bl simm` (R224)
  | bra (imm : BitVec 9)  -- `bra simm` (R225)
  | beq (imm : BitVec 9)  -- `beq simm` (R226)
  | bne (imm : BitVec 9)  -- `bne simm` (R227)
  | bmi (imm : BitVec 9)  -- `bmi simm` (R228)
  | bpl (imm : BitVec 9)  -- `bpl simm` (R229)
  | bvs (imm : BitVec 9)  -- `bvs simm` (R230)
  | bvc (imm : BitVec 9)  -- `bvc simm` (R231)
  | bgeu (imm : BitVec 9)  -- `bgeu simm` (R232)
  | bltu (imm : BitVec 9)  -- `bltu simm` (R233)
  | bgtu (imm : BitVec 9)  -- `bgtu simm` (R234)
  | bleu (imm : BitVec 9)  -- `bleu simm` (R235)
  | bges (imm : BitVec 9)  -- `bges simm` (R236)
  | blts (imm : BitVec 9)  -- `blts simm` (R237)
  | bgts (imm : BitVec 9)  -- `bgts simm` (R238)
  | bles (imm : BitVec 9)  -- `bles simm` (R239)
  -- Group 4: jumps, interrupt control, special registers, index, stack (R251 to R266)
  | jl (rA : Reg)  -- `jl rA` (R251)
  | jmp (rA : Reg)  -- `jmp rA` (R252)
  | jmpIra  -- `jmp ira` (R253)
  | reti  -- `reti` (R254)
  | cpyFromS (rA : Reg) (sC : SField)  -- `cpy rA, sC` (R255)
  | cpyToS (sA : SField) (rB : Reg)  -- `cpy sA, rB` (R256)
  | cpySS (sA sB : SField)  -- `cpy sA, sB` (R257)
  | index (rA : Reg)  -- `index rA` (R258)
  | ei  -- `ei` (R259)
  | di  -- `di` (R260)
  | push (rA rB : Reg)  -- `push rA, rB` (R263)
  | pop (rA rB : Reg)  -- `pop rA, rB` (R264)
  | pushS (sA : SField) (rB : Reg)  -- `push sA, rB` (R265)
  | popS (sA : SField) (rB : Reg)  -- `pop sA, rB` (R266)
  -- Group 4: multiply, divide, modulo (R281 to R291)
  | mul (rA rB : Reg)  -- `mul rA, rB` (R281)
  | udiv (rA rB : Reg)  -- `udiv rA, rB` (R282)
  | sdiv (rA rB : Reg)  -- `sdiv rA, rB` (R283)
  | umod (rA rB : Reg)  -- `umod rA, rB` (R284)
  | smod (rA rB : Reg)  -- `smod rA, rB` (R285)
  | lumul (rA rB : Reg)  -- `lumul rA, rB` (R286)
  | lsmul (rA rB : Reg)  -- `lsmul rA, rB` (R287)
  | ludiv (rA rB : Reg)  -- `ludiv rA, rB` (R288)
  | lsdiv (rA rB : Reg)  -- `lsdiv rA, rB` (R289)
  | lumod (rA rB : Reg)  -- `lumod rA, rB` (R290)
  | lsmod (rA rB : Reg)  -- `lsmod rA, rB` (R291)
  -- Group 4: 8-bit and 16-bit loads and stores (R302 to R307)
  | ldub (rA rB : Reg)  -- `ldub rA, [rB]` (R302)
  | ldsb (rA rB : Reg)  -- `ldsb rA, [rB]` (R303)
  | lduh (rA rB : Reg)  -- `lduh rA, [rB]` (R304)
  | ldsh (rA rB : Reg)  -- `ldsh rA, [rB]` (R305)
  | stb (rA rB : Reg)  -- `stb rA, [rB]` (R306)
  | sth (rA rB : Reg)  -- `sth rA, [rB]` (R307)
  -- Groups 5 and 6 (R318, R320)
  | ldr (rA rB : Reg) (imm : BitVec 5)  -- `ldr rA, [rB, #simm]` (R318)
  | str (rA rB : Reg) (imm : BitVec 5)  -- `str rA, [rB, #simm]` (R320)
  -- Group 7, subgroup 0b00 (R328 to R333)
  | cmpb (rA rB : Reg)  -- `cmpb rA, rB` (R328)
  | cmph (rA rB : Reg)  -- `cmph rA, rB` (R329)
  | lsrb (rA rB : Reg)  -- `lsrb rA, rB` (R330)
  | lsrh (rA rB : Reg)  -- `lsrh rA, rB` (R331)
  | asrb (rA rB : Reg)  -- `asrb rA, rB` (R332)
  | asrh (rA rB : Reg)  -- `asrh rA, rB` (R333)
deriving DecidableEq, Repr

end Sys2Proof
end

