-- ==== Sys2Proof/WellFormed.lean ====
section
/-! DEFINITION. WellFormed.lean: the one check on an instruction that its types do not make: a special-purpose
register field holds 0x0 to 0x7 (R49, R126). Every other field admits all its values (R32, R111). -/

namespace Sys2Proof

/-- The field names a special-purpose register: 0x0 to 0x7 (R46); 0x8 to 0xf are reserved (R49). -/
def SField.defined (k : SField) : Bool := k.toNat < 8

/-- Every special-purpose register field of the instruction is defined. -/
def Instr.wellFormed : Instr → Bool
  | .cpyFromS _ sC => SField.defined sC
  | .cpyToS sA _ => SField.defined sA
  | .cpySS sA sB => SField.defined sA && SField.defined sB
  | .pushS sA _ => SField.defined sA
  | .popS sA _ => SField.defined sA
  | .jmpIra | .reti | .ei | .di => true
  | .pre _ | .lpre _ | .swiImm _ | .bl _ | .bra _ | .beq _ | .bne _ | .bmi _ | .bpl _ | .bvs _ | .bvc _
  | .bgeu _ | .bltu _ | .bgtu _ | .bleu _ | .bges _ | .blts _ | .bgts _ | .bles _ | .jl _ | .jmp _ | .index _ => true
  | .addImm _ _ | .addPcImm _ _ | .addSpImm _ _ | .addFpImm _ _ | .cmpImm _ _ | .cpyImm _ _ | .lslImm _ _
  | .lsrImm _ _ | .asrImm _ _ | .andImm _ _ | .orrImm _ _ | .xorImm _ _ | .zeImm _ _ | .seImm _ _
  | .swiRegImm _ _ | .add _ _ | .addF _ _ | .sub _ _ | .subF _ _ | .addSp _ _ | .addSpF _ _ | .addFp _ _
  | .addFpF _ _ | .cmp _ _ | .cpy _ _ | .cpyF _ _ | .lsl _ _ | .lslF _ _ | .lsr _ _ | .lsrF _ _ | .asr _ _
  | .asrF _ _ | .and _ _ | .andF _ _ | .orr _ _ | .orrF _ _ | .xor _ _ | .xorF _ _ | .adc _ _ | .adcF _ _
  | .sbc _ _ | .sbcF _ _ | .push _ _ | .pop _ _ | .mul _ _ | .udiv _ _ | .sdiv _ _ | .umod _ _ | .smod _ _
  | .lumul _ _ | .lsmul _ _ | .ludiv _ _ | .lsdiv _ _ | .lumod _ _ | .lsmod _ _ | .ldub _ _ | .ldsb _ _
  | .lduh _ _ | .ldsh _ _ | .stb _ _ | .sth _ _ | .cmpb _ _ | .cmph _ _ | .lsrb _ _ | .lsrh _ _ | .asrb _ _
  | .asrh _ _ => true
  | .ldr _ _ _ | .str _ _ _ => true

end Sys2Proof
end

