-- ==== Sys2Proof/Decode.lean ====
section
/-! DEFINITION. Decode.lean: from bytes to an instruction or a named rejection, total on any bytes (30_encoding.md),
and after it the encoder. Bytes come in memory order; a halfword's high byte comes first (R77). Bit patterns are read
most significant bit first (R11). -/

namespace Sys2Proof

/-- Why bytes are no instruction. Each but `truncated` is one of the reserved encodings of R121 to R126. -/
inductive DecodeError where
  /-- Bits 15:11 are `00011` (R121). -/
  | reservedGroup0
  /-- Group 2, opcode 0xe or 0xf (R122). -/
  | reservedGroup2Opcode
  /-- Group 4, opcode 0x1f (R123). -/
  | reservedGroup4Opcode
  /-- Group 7, subgroup 0b01, 0b10 or 0b11 (R124). -/
  | reservedGroup7Subgroup
  /-- Group 7 subgroup 0b00, opcode 0x3 (R125). -/
  | reservedGroup7Opcode
  /-- A special-purpose register field holds 0x8 to 0xf (R126). -/
  | reservedSpecialRegister
  /-- Fewer bytes than the instruction has. -/
  | truncated
deriving DecidableEq, Repr

/-- The register a 4-bit field names (R31). -/
def Reg.ofField (n : BitVec 4) : Reg :=
  match n.toNat with
  | 0 => .r0 | 1 => .r1 | 2 => .r2 | 3 => .r3 | 4 => .r4 | 5 => .r5 | 6 => .r6 | 7 => .r7
  | 8 => .r8 | 9 => .r9 | 10 => .r10 | 11 => .r11 | 12 => .r12 | 13 => .lr | 14 => .fp | _ => .sp

/-- The number of a register (R31). -/
def Reg.field : Reg → BitVec 4
  | .r0 => 0x0#4 | .r1 => 0x1#4 | .r2 => 0x2#4 | .r3 => 0x3#4 | .r4 => 0x4#4 | .r5 => 0x5#4 | .r6 => 0x6#4
  | .r7 => 0x7#4 | .r8 => 0x8#4 | .r9 => 0x9#4 | .r10 => 0xA#4 | .r11 => 0xB#4 | .r12 => 0xC#4 | .lr => 0xD#4
  | .fp => 0xE#4 | .sp => 0xF#4

/-- The special-purpose register a field names; `none` for the reserved encodings (R46, R49). -/
def SReg.ofField (k : SField) : Option SReg :=
  match k.toNat with
  | 0 => some .flags | 1 => some .hi | 2 => some .lo | 3 => some .ids | 4 => some .ira | 5 => some .ie
  | 6 => some .ity | 7 => some .sty | _ => none

/-- The encoding of a special-purpose register (R46). -/
def SReg.field : SReg → SField
  | .flags => 0x0#4 | .hi => 0x1#4 | .lo => 0x2#4 | .ids => 0x3#4 | .ira => 0x4#4 | .ie => 0x5#4 | .ity => 0x6#4
  | .sty => 0x7#4

/-- The length test of R100: the instruction has 32 bits exactly when bits 15:11 of its first halfword are `00010`. -/
def isLpre (h : Halfword) : Bool := h.extractLsb' 11 5 == 0b00010#5

/-- Group 1, opcode `o` (R105, R118). -/
def decodeGroup1 (o : BitVec 4) (rA : Reg) (imm : BitVec 5) : Instr :=
  match o.toNat with
  | 0 => .addImm rA imm
  | 1 => .addPcImm rA imm
  | 2 => .addSpImm rA imm
  | 3 => .addFpImm rA imm
  | 4 => .cmpImm rA imm
  | 5 => .cpyImm rA imm
  | 6 => .lslImm rA imm
  | 7 => .lsrImm rA imm
  | 8 => .asrImm rA imm
  | 9 => .andImm rA imm
  | 10 => .orrImm rA imm
  | 11 => .xorImm rA imm
  | 12 => .zeImm rA imm
  | 13 => .seImm rA imm
  | 14 => .swiRegImm rA imm
  | _ => .swiImm imm

/-- Group 2, bit `f`, opcode `o` (R106, R118, R122). `cmp` ignores `f`. -/
def decodeGroup2 (f : Bool) (o : BitVec 4) (rA rB : Reg) : Except DecodeError Instr :=
  match o.toNat with
  | 0 => .ok (if f then .addF rA rB else .add rA rB)
  | 1 => .ok (if f then .subF rA rB else .sub rA rB)
  | 2 => .ok (if f then .addSpF rA rB else .addSp rA rB)
  | 3 => .ok (if f then .addFpF rA rB else .addFp rA rB)
  | 4 => .ok (.cmp rA rB)
  | 5 => .ok (if f then .cpyF rA rB else .cpy rA rB)
  | 6 => .ok (if f then .lslF rA rB else .lsl rA rB)
  | 7 => .ok (if f then .lsrF rA rB else .lsr rA rB)
  | 8 => .ok (if f then .asrF rA rB else .asr rA rB)
  | 9 => .ok (if f then .andF rA rB else .and rA rB)
  | 10 => .ok (if f then .orrF rA rB else .orr rA rB)
  | 11 => .ok (if f then .xorF rA rB else .xor rA rB)
  | 12 => .ok (if f then .adcF rA rB else .adc rA rB)
  | 13 => .ok (if f then .sbcF rA rB else .sbc rA rB)
  | _ => .error .reservedGroup2Opcode

/-- Group 3, opcode `o` (R107, R118). -/
def decodeGroup3 (o : BitVec 4) (imm : BitVec 9) : Instr :=
  match o.toNat with
  | 0 => .bl imm
  | 1 => .bra imm
  | 2 => .beq imm
  | 3 => .bne imm
  | 4 => .bmi imm
  | 5 => .bpl imm
  | 6 => .bvs imm
  | 7 => .bvc imm
  | 8 => .bgeu imm
  | 9 => .bltu imm
  | 10 => .bgtu imm
  | 11 => .bleu imm
  | 12 => .bges imm
  | 13 => .blts imm
  | 14 => .bgts imm
  | _ => .bles imm

/-- Group 4, opcode `o`, fields `a` and `b` (R108, R118, R123); unused fields are ignored (R119). -/
def decodeGroup4 (o : BitVec 5) (a b : BitVec 4) : Except DecodeError Instr :=
  let rA := Reg.ofField a
  let rB := Reg.ofField b
  match o.toNat with
  | 0 => .ok (.jl rA)
  | 1 => .ok (.jmp rA)
  | 2 => .ok .jmpIra
  | 3 => .ok .reti
  | 4 => if SField.defined b then .ok (.cpyFromS rA b) else .error .reservedSpecialRegister
  | 5 => if SField.defined a then .ok (.cpyToS a rB) else .error .reservedSpecialRegister
  | 6 => if SField.defined a && SField.defined b then .ok (.cpySS a b) else .error .reservedSpecialRegister
  | 7 => .ok (.index rA)
  | 8 => .ok .ei
  | 9 => .ok .di
  | 10 => .ok (.push rA rB)
  | 11 => .ok (.pop rA rB)
  | 12 => if SField.defined a then .ok (.pushS a rB) else .error .reservedSpecialRegister
  | 13 => if SField.defined a then .ok (.popS a rB) else .error .reservedSpecialRegister
  | 14 => .ok (.mul rA rB)
  | 15 => .ok (.udiv rA rB)
  | 16 => .ok (.sdiv rA rB)
  | 17 => .ok (.umod rA rB)
  | 18 => .ok (.smod rA rB)
  | 19 => .ok (.lumul rA rB)
  | 20 => .ok (.lsmul rA rB)
  | 21 => .ok (.ludiv rA rB)
  | 22 => .ok (.lsdiv rA rB)
  | 23 => .ok (.lumod rA rB)
  | 24 => .ok (.lsmod rA rB)
  | 25 => .ok (.ldub rA rB)
  | 26 => .ok (.ldsb rA rB)
  | 27 => .ok (.lduh rA rB)
  | 28 => .ok (.ldsh rA rB)
  | 29 => .ok (.stb rA rB)
  | 30 => .ok (.sth rA rB)
  | _ => .error .reservedGroup4Opcode

/-- Group 7 subgroup 0b00, width bit `w`, opcode `o` (R110, R125). -/
def decodeGroup7 (w : Bool) (o : BitVec 2) (rA rB : Reg) : Except DecodeError Instr :=
  match o.toNat with
  | 0 => .ok (if w then .cmph rA rB else .cmpb rA rB)
  | 1 => .ok (if w then .lsrh rA rB else .lsrb rA rB)
  | 2 => .ok (if w then .asrh rA rB else .asrb rA rB)
  | _ => .error .reservedGroup7Opcode

/-- The instruction of one halfword (R100, R101). A first halfword of `lpre` alone is `truncated`. -/
def decodeHalf (h : Halfword) : Except DecodeError Instr :=
  let a := h.extractLsb' 0 4
  let b := h.extractLsb' 4 4
  let rA := Reg.ofField a
  let rB := Reg.ofField b
  match (h.extractLsb' 13 3).toNat with
  | 0 =>
    if !h.getLsbD 12 then .ok (.pre (h.extractLsb' 0 12))
    else if isLpre h then .error .truncated
    else .error .reservedGroup0
  | 1 => .ok (decodeGroup1 b rA (h.extractLsb' 8 5))
  | 2 => decodeGroup2 (h.getLsbD 12) (h.extractLsb' 8 4) rA rB
  | 3 => .ok (decodeGroup3 a (h.extractLsb' 4 9))
  | 4 => decodeGroup4 (h.extractLsb' 8 5) a b
  | 5 => .ok (.ldr rA rB (h.extractLsb' 8 5))
  | 6 => .ok (.str rA rB (h.extractLsb' 8 5))
  | _ =>
    if h.extractLsb' 11 2 == 0b00#2 then decodeGroup7 (h.getLsbD 10) (h.extractLsb' 8 2) rA rB
    else .error .reservedGroup7Subgroup

/-- The first instruction of the bytes, and the bytes after it. The halfword of `lpre` at the lower address holds bits
31:16 of its pattern (R104): imm27[26:16] are bits 10:0 of the first halfword, imm27[15:0] the second (R101). -/
def decode : List Byte → Except DecodeError (Instr × List Byte)
  | b0 :: b1 :: rest =>
    if isLpre (b0 ++ b1) then
      match rest with
      | b2 :: b3 :: rest' => .ok (.lpre ((b0 ++ b1).extractLsb' 0 11 ++ (b2 ++ b3)), rest')
      | _ => .error .truncated
    else
      match decodeHalf (b0 ++ b1) with
      | .ok i => .ok (i, rest)
      | .error e => .error e
  | _ => .error .truncated

/-- The two bytes of a halfword in memory order (R77). -/
def halfBytes (h : Halfword) : List Byte := [h.extractLsb' 8 8, h.extractLsb' 0 8]

/-- The two halfwords that `w` stands for, numbered as spec/opcode_table.json numbers a row's bits: a 16-bit row is
its halfword; the 32-bit row, `lpre`, has its first halfword (the lower address) in bits 31:16. A row of 16 bits is
followed by a halfword of zeros. -/
def tableHalfwords (nbits w : Nat) : Halfword × Halfword :=
  if nbits ≤ 16 then (BitVec.ofNat 16 w, 0#16) else (BitVec.ofNat 16 (w / 2 ^ 16), BitVec.ofNat 16 w)

/-- The bytes of those halfwords, in memory order. -/
def tableBytes (nbits w : Nat) : List Byte :=
  halfBytes (tableHalfwords nbits w).1 ++ halfBytes (tableHalfwords nbits w).2

/-- The instruction the decoder reads from the word of an opcode-table row. -/
def decodeTableWord (nbits w : Nat) : Option Instr :=
  match decode (tableBytes nbits w) with
  | .ok (i, _) => some i
  | .error _ => none

/-- `001i iiii oooo aaaa` (R105). -/
def encodeGroup1 (o : BitVec 4) (a : BitVec 4) (imm : BitVec 5) : List Halfword := [0b001#3 ++ imm ++ o ++ a]

/-- `010f oooo bbbb aaaa` (R106). -/
def encodeGroup2 (f : BitVec 1) (o : BitVec 4) (rA rB : Reg) : List Halfword :=
  [0b010#3 ++ f ++ o ++ rB.field ++ rA.field]

/-- `011i iiii iiii oooo` (R107). -/
def encodeGroup3 (o : BitVec 4) (imm : BitVec 9) : List Halfword := [0b011#3 ++ imm ++ o]

/-- `100o oooo bbbb aaaa` (R108); an unused field is written as 0 (R119). -/
def encodeGroup4 (o : BitVec 5) (a b : BitVec 4) : List Halfword := [0b100#3 ++ o ++ b ++ a]

/-- `1110 0woo bbbb aaaa` (R110). -/
def encodeGroup7 (w : BitVec 1) (o : BitVec 2) (rA rB : Reg) : List Halfword :=
  [0b11100#5 ++ w ++ o ++ rB.field ++ rA.field]

/-- The halfwords of a well-formed instruction, in memory order (R101, R118). -/
def encode : Instr → List Halfword
  | .pre imm => [0b0000#4 ++ imm]
  | .lpre imm => [0b00010#5 ++ imm.extractLsb' 16 11, imm.extractLsb' 0 16]
  | .addImm rA imm => encodeGroup1 0x0#4 rA.field imm
  | .addPcImm rA imm => encodeGroup1 0x1#4 rA.field imm
  | .addSpImm rA imm => encodeGroup1 0x2#4 rA.field imm
  | .addFpImm rA imm => encodeGroup1 0x3#4 rA.field imm
  | .cmpImm rA imm => encodeGroup1 0x4#4 rA.field imm
  | .cpyImm rA imm => encodeGroup1 0x5#4 rA.field imm
  | .lslImm rA imm => encodeGroup1 0x6#4 rA.field imm
  | .lsrImm rA imm => encodeGroup1 0x7#4 rA.field imm
  | .asrImm rA imm => encodeGroup1 0x8#4 rA.field imm
  | .andImm rA imm => encodeGroup1 0x9#4 rA.field imm
  | .orrImm rA imm => encodeGroup1 0xA#4 rA.field imm
  | .xorImm rA imm => encodeGroup1 0xB#4 rA.field imm
  | .zeImm rA imm => encodeGroup1 0xC#4 rA.field imm
  | .seImm rA imm => encodeGroup1 0xD#4 rA.field imm
  | .swiRegImm rA imm => encodeGroup1 0xE#4 rA.field imm
  | .swiImm imm => encodeGroup1 0xF#4 0x0#4 imm
  | .add rA rB => encodeGroup2 0#1 0x0#4 rA rB
  | .addF rA rB => encodeGroup2 1#1 0x0#4 rA rB
  | .sub rA rB => encodeGroup2 0#1 0x1#4 rA rB
  | .subF rA rB => encodeGroup2 1#1 0x1#4 rA rB
  | .addSp rA rB => encodeGroup2 0#1 0x2#4 rA rB
  | .addSpF rA rB => encodeGroup2 1#1 0x2#4 rA rB
  | .addFp rA rB => encodeGroup2 0#1 0x3#4 rA rB
  | .addFpF rA rB => encodeGroup2 1#1 0x3#4 rA rB
  | .cmp rA rB => encodeGroup2 0#1 0x4#4 rA rB
  | .cpy rA rB => encodeGroup2 0#1 0x5#4 rA rB
  | .cpyF rA rB => encodeGroup2 1#1 0x5#4 rA rB
  | .lsl rA rB => encodeGroup2 0#1 0x6#4 rA rB
  | .lslF rA rB => encodeGroup2 1#1 0x6#4 rA rB
  | .lsr rA rB => encodeGroup2 0#1 0x7#4 rA rB
  | .lsrF rA rB => encodeGroup2 1#1 0x7#4 rA rB
  | .asr rA rB => encodeGroup2 0#1 0x8#4 rA rB
  | .asrF rA rB => encodeGroup2 1#1 0x8#4 rA rB
  | .and rA rB => encodeGroup2 0#1 0x9#4 rA rB
  | .andF rA rB => encodeGroup2 1#1 0x9#4 rA rB
  | .orr rA rB => encodeGroup2 0#1 0xA#4 rA rB
  | .orrF rA rB => encodeGroup2 1#1 0xA#4 rA rB
  | .xor rA rB => encodeGroup2 0#1 0xB#4 rA rB
  | .xorF rA rB => encodeGroup2 1#1 0xB#4 rA rB
  | .adc rA rB => encodeGroup2 0#1 0xC#4 rA rB
  | .adcF rA rB => encodeGroup2 1#1 0xC#4 rA rB
  | .sbc rA rB => encodeGroup2 0#1 0xD#4 rA rB
  | .sbcF rA rB => encodeGroup2 1#1 0xD#4 rA rB
  | .bl imm => encodeGroup3 0x0#4 imm
  | .bra imm => encodeGroup3 0x1#4 imm
  | .beq imm => encodeGroup3 0x2#4 imm
  | .bne imm => encodeGroup3 0x3#4 imm
  | .bmi imm => encodeGroup3 0x4#4 imm
  | .bpl imm => encodeGroup3 0x5#4 imm
  | .bvs imm => encodeGroup3 0x6#4 imm
  | .bvc imm => encodeGroup3 0x7#4 imm
  | .bgeu imm => encodeGroup3 0x8#4 imm
  | .bltu imm => encodeGroup3 0x9#4 imm
  | .bgtu imm => encodeGroup3 0xA#4 imm
  | .bleu imm => encodeGroup3 0xB#4 imm
  | .bges imm => encodeGroup3 0xC#4 imm
  | .blts imm => encodeGroup3 0xD#4 imm
  | .bgts imm => encodeGroup3 0xE#4 imm
  | .bles imm => encodeGroup3 0xF#4 imm
  | .jl rA => encodeGroup4 0x00#5 rA.field 0x0#4
  | .jmp rA => encodeGroup4 0x01#5 rA.field 0x0#4
  | .jmpIra => encodeGroup4 0x02#5 0x0#4 0x0#4
  | .reti => encodeGroup4 0x03#5 0x0#4 0x0#4
  | .cpyFromS rA sC => encodeGroup4 0x04#5 rA.field sC
  | .cpyToS sA rB => encodeGroup4 0x05#5 sA rB.field
  | .cpySS sA sB => encodeGroup4 0x06#5 sA sB
  | .index rA => encodeGroup4 0x07#5 rA.field 0x0#4
  | .ei => encodeGroup4 0x08#5 0x0#4 0x0#4
  | .di => encodeGroup4 0x09#5 0x0#4 0x0#4
  | .push rA rB => encodeGroup4 0x0A#5 rA.field rB.field
  | .pop rA rB => encodeGroup4 0x0B#5 rA.field rB.field
  | .pushS sA rB => encodeGroup4 0x0C#5 sA rB.field
  | .popS sA rB => encodeGroup4 0x0D#5 sA rB.field
  | .mul rA rB => encodeGroup4 0x0E#5 rA.field rB.field
  | .udiv rA rB => encodeGroup4 0x0F#5 rA.field rB.field
  | .sdiv rA rB => encodeGroup4 0x10#5 rA.field rB.field
  | .umod rA rB => encodeGroup4 0x11#5 rA.field rB.field
  | .smod rA rB => encodeGroup4 0x12#5 rA.field rB.field
  | .lumul rA rB => encodeGroup4 0x13#5 rA.field rB.field
  | .lsmul rA rB => encodeGroup4 0x14#5 rA.field rB.field
  | .ludiv rA rB => encodeGroup4 0x15#5 rA.field rB.field
  | .lsdiv rA rB => encodeGroup4 0x16#5 rA.field rB.field
  | .lumod rA rB => encodeGroup4 0x17#5 rA.field rB.field
  | .lsmod rA rB => encodeGroup4 0x18#5 rA.field rB.field
  | .ldub rA rB => encodeGroup4 0x19#5 rA.field rB.field
  | .ldsb rA rB => encodeGroup4 0x1A#5 rA.field rB.field
  | .lduh rA rB => encodeGroup4 0x1B#5 rA.field rB.field
  | .ldsh rA rB => encodeGroup4 0x1C#5 rA.field rB.field
  | .stb rA rB => encodeGroup4 0x1D#5 rA.field rB.field
  | .sth rA rB => encodeGroup4 0x1E#5 rA.field rB.field
  | .ldr rA rB imm => [0b101#3 ++ imm ++ rB.field ++ rA.field]
  | .str rA rB imm => [0b110#3 ++ imm ++ rB.field ++ rA.field]
  | .cmpb rA rB => encodeGroup7 0#1 0#2 rA rB
  | .cmph rA rB => encodeGroup7 1#1 0#2 rA rB
  | .lsrb rA rB => encodeGroup7 0#1 1#2 rA rB
  | .lsrh rA rB => encodeGroup7 1#1 1#2 rA rB
  | .asrb rA rB => encodeGroup7 0#1 2#2 rA rB
  | .asrh rA rB => encodeGroup7 1#1 2#2 rA rB

/-- The bytes of a well-formed instruction, in memory order (R77). -/
def encodeBytes (i : Instr) : List Byte := (encode i).flatMap halfBytes

end Sys2Proof
end

