-- ==== Sys2Proof/Machine/State.lean ====
section
/-! DEFINITION. Machine/State.lean: everything the spec gives the machine, as plain data; the reasons a step can stop;
and the state right after reset. INVENTORY.md, '## State', lists each field with its rule. -/

namespace Sys2Proof.Machine

/-- Why the machine stops: the model faults of R359, which are not exceptions of the hardware. Every one is SAFE: the
sources do not say what the hardware does there, the machine stops, and nothing is claimed beyond (R16). -/
inductive Fault where
  /-- Raised by the fetch of a reserved encoding (R120 to R126) and by the five instructions that name a
  special-purpose register, where the field holds 0x8 to 0xf (R49). Safe. -/
  | reservedInstruction
  /-- Raised by the fetch at an odd `pc` (R39, R78). Safe. -/
  | misalignedFetch
  /-- Raised by a 16-bit data access at an odd address and a 32-bit one at an address that is no multiple of 4
  (R80). Safe. -/
  | misalignedAccess
  /-- Raised by a fetch or a data access that touches an address which `MEM_MAP` does not back (R72). Safe. -/
  | accessRefused
  /-- Raised by a fetch or a load of a backed byte that the launch did not supply and nothing wrote (R88: such bytes
  "have no value (reading them is a fault or a draw in the model)"). Safe. -/
  | unwrittenByte
deriving DecidableEq, Repr

/-- Why the model declines to run an instruction. No arm of `exec` uses it. -/
inductive Refusal where
  /-- An instruction with no meaning yet: raised by `exec`'s arm for it. Safe. -/
  | notModelled (mnemonic : String)
deriving DecidableEq, Repr

/-- The sixteen general registers (R30). None is hard-wired (R32). -/
structure Regs where
  r0 : Word
  r1 : Word
  r2 : Word
  r3 : Word
  r4 : Word
  r5 : Word
  r6 : Word
  r7 : Word
  r8 : Word
  r9 : Word
  r10 : Word
  r11 : Word
  r12 : Word
  lr : Word
  fp : Word
  sp : Word
deriving DecidableEq, Repr

/-- The four defined bits of `flags`; the others are reserved and not stored (R42, R48). -/
structure Flags where
  /-- Zero, bit 0. -/
  z : Bool
  /-- Carry, bit 1. -/
  c : Bool
  /-- oVerflow, bit 2. -/
  v : Bool
  /-- Negative, bit 3. -/
  n : Bool
deriving DecidableEq, Repr

/-- The bytes that the launch supplied or a store wrote, by address, in the one form `Memory.wf` says. -/
abbrev Memory := List Host.Cell

/-- What an address that is not listed reads as: nothing. R88 gives such a byte no value (log 4, safe). -/
def Memory.unlisted : Option Byte := none

/-- The canonical form: addresses strictly rising, each below 2^32 (R70). No entry can equal what an unlisted address
reads as, since that is no byte. -/
abbrev Memory.wf (m : Memory) : Prop := m.Pairwise (fun p q => p.1 < q.1) ∧ ∀ p ∈ m, p.1 < 2 ^ 32

/-- The machine. -/
structure State where
  /-- R30. -/
  regs : Regs
  /-- R36. -/
  pc : Word
  /-- Special-purpose register 0x0 (R42). -/
  flags : Flags
  /-- Special-purpose register 0x1 (R50). -/
  hi : Word
  /-- Special-purpose register 0x2 (R50). -/
  lo : Word
  /-- Special-purpose register 0x3, the interrupt destination (R51). -/
  ids : Word
  /-- Special-purpose register 0x4, the interrupt return address (R51). -/
  ira : Word
  /-- Special-purpose register 0x5, IRQ enable (R52). -/
  ie : Bool
  /-- Special-purpose register 0x6: `false` is an IRQ, `true` a `swi` (R53). -/
  ity : Bool
  /-- Special-purpose register 0x7, `swi`'s argument (R53). -/
  sty : Word
  /-- "`pre` is in effect" (R55). -/
  preHave : Bool
  /-- The immediate of the `pre` in effect (R55). -/
  preImm : BitVec 12
  /-- "`lpre` is in effect" (R56). -/
  lpreHave : Bool
  /-- The immediate of the `lpre` in effect (R56). -/
  lpreImm : BitVec 27
  /-- "`index` is in effect" (R54). -/
  indexHave : Bool
  /-- The register that `index` writes (R54). -/
  indexReg : Word
  /-- The interrupt-request input at this instruction boundary (R59, R346). -/
  irqPending : Bool
  /-- `IRQ_SOURCE`, the model's own field: what the input is at the boundaries that follow, the next one first; past
  its end the input keeps its level (log 5). -/
  irqSource : List Bool
  /-- R70, R88. -/
  mem : Memory
  /-- The parameters of R9, the model's own field; no step changes it (R61, log 12). -/
  params : Config.Params
  /-- How many free values have been drawn, the model's own field (log 7). -/
  draws : Nat
deriving DecidableEq, Repr

/-- DESIGN CHOICE (log 1): R34, R45 and R60 give these registers no value at reset. -/
def Regs.reset : Regs :=
  { r0 := 0#32, r1 := 0#32, r2 := 0#32, r3 := 0#32, r4 := 0#32, r5 := 0#32, r6 := 0#32, r7 := 0#32, r8 := 0#32,
    r9 := 0#32, r10 := 0#32, r11 := 0#32, r12 := 0#32, lr := 0#32, fp := 0#32, sp := 0#32 }

/-- The machine right after reset (R60, R381). The spec gives `ie` = 0 and the three `have` bits = 0, and puts nothing
into memory itself (R88). DESIGN CHOICE: every other register 0 (log 1), `pc` (log 2), the memory map (log 3), the
interrupt-request input (log 5). -/
def State.reset : State :=
  { regs := Regs.reset, pc := Config.resetPc, flags := { z := false, c := false, v := false, n := false },
    hi := 0#32, lo := 0#32, ids := 0#32, ira := 0#32, ie := false, ity := false, sty := 0#32,
    preHave := false, preImm := 0#12, lpreHave := false, lpreImm := 0#27, indexHave := false, indexReg := 0#32,
    irqPending := false, irqSource := [], mem := [], params := Config.specDefaults, draws := 0 }

end Sys2Proof.Machine
end

