-- ==== Sys2Proof/Machine/Flags.lean ====
section
/-! DEFINITION. Machine/Flags.lean: every flag computation of the spec, the two forms of the `flags` register, and the
conditions of the sixteen branches. -/

namespace Sys2Proof.Machine

/-- A result of `w` bits with its four flags. -/
structure Sum (w : Nat) where
  r : BitVec w
  flags : Flags
deriving DecidableEq, Repr

/-- `AddC_w(a, b, cin)` (R178): the sum, computed exactly and then narrowed; C is the carry out of bit `w - 1`, V the
signed overflow. -/
def addC {w : Nat} (a b : BitVec w) (cin : Bool) : Sum w :=
  let t := a.toNat + b.toNat + cin.toNat
  let r := BitVec.ofNat w t
  { r := r,
    flags := { z := decide (r.toNat = 0), c := decide (2 ^ w ≤ t), v := a.msb == b.msb && r.msb != a.msb, n := r.msb } }

/-- `a - b` (R178): `AddC_w(a, ~b, 1)`, so that C = 1 means no borrow. -/
def subC {w : Nat} (a b : BitVec w) : Sum w := addC a (~~~b) true

/-- The move, shift and logic family (R192): Z and N from the result, C and V as they were. -/
def Flags.ofResult (f : Flags) (r : Word) : Flags := { f with z := decide (r.toNat = 0), n := r.msb }

/-- `flags` as a 32-bit value: `zext_4({N, V, C, Z})` (R47). -/
def Flags.toWord (f : Flags) : Word :=
  (BitVec.ofBool f.n ++ BitVec.ofBool f.v ++ BitVec.ofBool f.c ++ BitVec.ofBool f.z).setWidth 32

/-- What `flags` takes of a 32-bit value: its low four bits (R48). -/
def Flags.ofWord (v : Word) : Flags :=
  { z := v.getLsbD 0, c := v.getLsbD 1, v := v.getLsbD 2, n := v.getLsbD 3 }

/-- "if (flags.Z)" (R226). -/
def Flags.eq (f : Flags) : Bool := f.z
/-- "if (!flags.Z)" (R227). -/
def Flags.ne (f : Flags) : Bool := !f.z
/-- "if (flags.N)" (R228). -/
def Flags.mi (f : Flags) : Bool := f.n
/-- "if (!flags.N)" (R229). -/
def Flags.pl (f : Flags) : Bool := !f.n
/-- "if (flags.V)" (R230). -/
def Flags.vs (f : Flags) : Bool := f.v
/-- "if (!flags.V)" (R231). -/
def Flags.vc (f : Flags) : Bool := !f.v
/-- "if (flags.C)" (R232). -/
def Flags.geu (f : Flags) : Bool := f.c
/-- "if (!flags.C)" (R233). -/
def Flags.ltu (f : Flags) : Bool := !f.c
/-- "if (flags.C AND !flags.Z)" (R234). -/
def Flags.gtu (f : Flags) : Bool := f.c && !f.z
/-- "if (!flags.C OR flags.Z)" (R235). -/
def Flags.leu (f : Flags) : Bool := !f.c || f.z
/-- "if (!(flags.N XOR flags.V))" (R236). -/
def Flags.ges (f : Flags) : Bool := !(f.n ^^ f.v)
/-- "if (flags.N XOR flags.V)" (R237). -/
def Flags.lts (f : Flags) : Bool := f.n ^^ f.v
/-- "if ((!(flags.N XOR flags.V)) AND !flags.Z)" (R238). -/
def Flags.gts (f : Flags) : Bool := !(f.n ^^ f.v) && !f.z
/-- "if ((flags.N XOR flags.V) OR flags.Z)" (R239). -/
def Flags.les (f : Flags) : Bool := (f.n ^^ f.v) || f.z

end Sys2Proof.Machine
end

