-- ==== Sys2Proof/Machine/Ops.lean ====
section
/-! DEFINITION. Machine/Ops.lean: the named operations over registers, memory and the prefix state; the ends of an
instruction; taking an interrupt (`swi` and IRQ) and returning from one. -/

namespace Sys2Proof.Machine

/-- What an instruction or a step answers. -/
abbrev Result := Host.Outcome State Fault Refusal

/-! General registers -/

/-- `x[i]` (R14). -/
def Regs.read (g : Regs) : Reg → Word
  | .r0 => g.r0 | .r1 => g.r1 | .r2 => g.r2 | .r3 => g.r3 | .r4 => g.r4 | .r5 => g.r5 | .r6 => g.r6 | .r7 => g.r7
  | .r8 => g.r8 | .r9 => g.r9 | .r10 => g.r10 | .r11 => g.r11 | .r12 => g.r12 | .lr => g.lr | .fp => g.fp | .sp => g.sp

/-- `x[i] <- v` (R14). Every register is written as it is named; none is hard-wired (R32). -/
def Regs.write (g : Regs) (i : Reg) (v : Word) : Regs :=
  match i with
  | .r0 => { g with r0 := v } | .r1 => { g with r1 := v } | .r2 => { g with r2 := v } | .r3 => { g with r3 := v }
  | .r4 => { g with r4 := v } | .r5 => { g with r5 := v } | .r6 => { g with r6 := v } | .r7 => { g with r7 := v }
  | .r8 => { g with r8 := v } | .r9 => { g with r9 := v } | .r10 => { g with r10 := v } | .r11 => { g with r11 := v }
  | .r12 => { g with r12 := v } | .lr => { g with lr := v } | .fp => { g with fp := v } | .sp => { g with sp := v }

/-- `x[i]` in a state. -/
def State.reg (s : State) (i : Reg) : Word := s.regs.read i

/-- `x[i] <- v` in a state. -/
def State.setReg (s : State) (i : Reg) (v : Word) : State := { s with regs := s.regs.write i v }

/-- The four flags, written together. -/
def State.setFlags (s : State) (f : Flags) : State := { s with flags := f }

/-! Special-purpose registers -/

/-- A 1-bit register read as 32 bits (R47). -/
def bitWord (b : Bool) : Word := (BitVec.ofBool b).setWidth 32

/-- `sr[k]` (R47): narrow registers are zero-extended. -/
def State.readS (s : State) : SReg → Word
  | .flags => s.flags.toWord
  | .hi => s.hi
  | .lo => s.lo
  | .ids => s.ids
  | .ira => s.ira
  | .ie => bitWord s.ie
  | .ity => bitWord s.ity
  | .sty => s.sty

/-- `sr[k] <- v` (R48): `flags` keeps bits 3:0, `ie` and `ity` bit 0. -/
def State.writeS (s : State) (k : SReg) (v : Word) : State :=
  match k with
  | .flags => { s with flags := Flags.ofWord v }
  | .hi => { s with hi := v }
  | .lo => { s with lo := v }
  | .ids => { s with ids := v }
  | .ira => { s with ira := v }
  | .ie => { s with ie := v.getLsbD 0 }
  | .ity => { s with ity := v.getLsbD 0 }
  | .sty => { s with sty := v }

/-- `{hi, lo}` (R50, R292). -/
def State.hilo (s : State) : DWord := s.hi ++ s.lo

/-- `{hi, lo} <- r` (R292). -/
def State.setHilo (s : State) (r : DWord) : State := { s with hi := r.extractLsb' 32 32, lo := r.extractLsb' 0 32 }

/-! Memory -/

/-- The byte at an address, `none` where there is none. -/
def Memory.read : Memory → Nat → Option Byte
  | [], _ => Memory.unlisted
  | (k, b) :: m, a => if k = a then some b else Memory.read m a

/-- The memory with one byte written, in its canonical form. -/
def Memory.write : Memory → Nat → Byte → Memory
  | [], a, v => [(a, v)]
  | (k, b) :: m, a, v =>
    if a < k then (a, v) :: (k, b) :: m
    else if a = k then (a, v) :: m
    else (k, b) :: Memory.write m a v

/-- Bytes written at rising addresses, modulo 2^32 (R75, R84). -/
def Memory.writeBytes (m : Memory) (a : Word) : List Byte → Memory
  | [] => m
  | b :: bs => Memory.writeBytes (m.write a.toNat b) (a + 1#32) bs

/-- `MEM_MAP` backs the address (R72). -/
def State.backed (s : State) (a : Word) : Bool :=
  s.params.memMap.any fun r => decide (r.first.toNat ≤ a.toNat) && decide (a.toNat ≤ r.last.toNat)

/-- `MEM_MAP` backs the `n` bytes from `a` on. -/
def State.backedAll (s : State) (a : Word) (n : Nat) : Bool :=
  (List.range n).all fun k => s.backed (a + BitVec.ofNat 32 k)

/-- A data access of `n` bytes at `a`: natural alignment (R80), and every byte backed (R72). DESIGN CHOICE (log 16):
where both fail, the misalignment is named. -/
def State.checkAccess (s : State) (a : Word) (n : Nat) : Except Fault Unit :=
  if a.toNat % n ≠ 0 then .error .misalignedAccess
  else if s.backedAll a n then .ok ()
  else .error .accessRefused

/-- `B(a)` of R74, where the byte has a value (R88). -/
def State.loadByte (s : State) (a : Word) : Except Fault Byte :=
  match s.mem.read a.toNat with
  | some b => .ok b
  | none => .error .unwrittenByte

/-- `MemRead(a, 1)` (R74): the model's read of one byte. -/
def State.readByte (s : State) (a : Word) : Except Fault Byte := do
  s.checkAccess a 1
  s.loadByte a

/-- `MemRead(a, 2)` (R74): the byte at `a` is the more significant one (R73). -/
def State.readHalf (s : State) (a : Word) : Except Fault Halfword := do
  s.checkAccess a 2
  let b0 ← s.loadByte a
  let b1 ← s.loadByte (a + 1#32)
  return b0 ++ b1

/-- `MemRead(a, 4)` (R74). -/
def State.readWord (s : State) (a : Word) : Except Fault Word := do
  s.checkAccess a 4
  let b0 ← s.loadByte a
  let b1 ← s.loadByte (a + 1#32)
  let b2 ← s.loadByte (a + 2#32)
  let b3 ← s.loadByte (a + 3#32)
  return b0 ++ b1 ++ b2 ++ b3

/-- The four bytes of a word in memory order (R75). -/
def wordBytes (v : Word) : List Byte :=
  [v.extractLsb' 24 8, v.extractLsb' 16 8, v.extractLsb' 8 8, v.extractLsb' 0 8]

/-- Bytes stored, without a check. -/
def State.storeBytes (s : State) (a : Word) (bs : List Byte) : State := { s with mem := s.mem.writeBytes a bs }

/-- `MemWrite(a, 1, v)` (R75). -/
def State.writeByte (s : State) (a : Word) (v : Byte) : Except Fault State := do
  s.checkAccess a 1
  return s.storeBytes a [v]

/-- `MemWrite(a, 2, v)` (R75). -/
def State.writeHalf (s : State) (a : Word) (v : Halfword) : Except Fault State := do
  s.checkAccess a 2
  return s.storeBytes a (halfBytes v)

/-- `MemWrite(a, 4, v)` (R75). -/
def State.writeWord (s : State) (a : Word) (v : Word) : Except Fault State := do
  s.checkAccess a 4
  return s.storeBytes a (wordBytes v)

/-! The stack -/

/-- A push (R261): the word is stored at the address in `rB`, and then 4 is subtracted from `rB`. -/
def State.pushWord (s : State) (rB : Reg) (v : Word) : Except Fault State := do
  let t ← s.writeWord (s.reg rB) v
  return t.setReg rB (s.reg rB - 4#32)

/-- A pop (R261): 4 is added to `rB`, and the word at that address is loaded. -/
def State.popWord (s : State) (rB : Reg) : Except Fault (Word × State) := do
  let v ← s.readWord (s.reg rB + 4#32)
  return (v, s.setReg rB (s.reg rB + 4#32))

/-- Go on with the value, or stop with the fault; a fault leaves no state (R359). -/
def attempt {α : Type} (x : Except Fault α) (k : α → Result) : Result :=
  match x with
  | .ok v => k v
  | .error f => .fault f

/-! The prefix state and the ends of an instruction -/

/-- A `pre`, `lpre` or `index` is in effect (R58): the manual's `can_service_interrupts` is its negation (R148). -/
def State.prefixed (s : State) : Bool := s.preHave || s.lpreHave || s.indexHave

/-- `P, L, X <- 0, 0, 0` (R146). -/
def State.clearPrefix (s : State) : State := { s with preHave := false, lpreHave := false, indexHave := false }

/-- `pc <- t` (R14). -/
def State.setPc (s : State) (t : Word) : State := { s with pc := t }

/-- The end of an instruction that does not transfer control and is no prefix: the prefix state is cleared (R146) and
`pc` moves on by 2 (R38). -/
def State.retire (s : State) : State := s.clearPrefix.setPc (s.pc + 2#32)

/-- The end of an instruction that transfers control to `t` (R152). -/
def State.jump (s : State) (t : Word) : State := s.clearPrefix.setPc t

/-- A branch: to `pc + imm + 2` where the condition holds, else on to `pc + 2` (R222). -/
def State.branch (s : State) (taken : Bool) (imm : Word) : State :=
  if taken then s.jump (s.pc + imm + 2#32) else s.retire

/-! Taking an interrupt, and returning from one -/

/-- `raise SWI(arg)` (R342). Nothing else is saved or changed (R345). -/
def State.raiseSwi (s : State) (arg : Word) : State :=
  { s.clearPrefix with
    sty := arg, ity := true, ira := s.pc + 2#32, ie := if s.params.swiClearsIe then false else s.ie, pc := s.ids }

/-- An IRQ is taken at this boundary: the three conditions of R347. -/
def State.irqAccepted (s : State) : Bool := s.irqPending && s.ie && !s.prefixed

/-- The IRQ entry sequence (R348); `sty` is not written. -/
def State.irqEntry (s : State) : State := { s with ira := s.pc, ity := false, ie := false, pc := s.ids }

/-- `pc <- ira` (R253, R352), a return that leaves `ie` as it is. -/
def State.returnKeepingIe (s : State) : State := s.jump s.ira

/-- `ie <- 1; pc <- ira` (R254, R352). -/
def State.returnEnabling (s : State) : State := { s.jump s.ira with ie := true }

/-- The next boundary: the environment's next value of the interrupt-request input (R59, R346). -/
def State.sampleIrq (s : State) : State :=
  match s.irqSource with
  | [] => s
  | b :: bs => { s with irqPending := b, irqSource := bs }

/-- What a step adds to an instruction's own effect: the input is sampled anew for the next boundary. -/
def sampled : Result → Result
  | .next t => .next t.sampleIrq
  | .fault f => .fault f
  | .refused r => .refused r

end Sys2Proof.Machine
end

