-- ==== Sys2Proof/Machine/Operands.lean ====
section
/-! DEFINITION. Machine/Operands.lean: the immediates after `pre` and `lpre`, effective addresses, the shifts, bit
positions and divisions that the instructions share. -/

namespace Sys2Proof.Machine

/-! Immediates -/

/-- The immediate of an instruction that is no branch (R112 to R114). `pre` and `lpre` are never both in effect (R150);
DESIGN CHOICE (log 31) for states no run reaches: `pre` is looked at first. -/
def State.imm5 (s : State) (imm : BitVec 5) : Word :=
  if s.preHave then (s.preImm ++ imm).signExtend 32
  else if s.lpreHave then s.lpreImm ++ imm
  else imm.signExtend 32

/-- The immediate of a branch (R115). Of `lpre`'s 27 bits it uses 23, the low ones by default (`LPRE_BRANCH_BITS`). -/
def State.imm9 (s : State) (imm : BitVec 9) : Word :=
  if s.preHave then (s.preImm ++ imm).signExtend 32
  else if s.lpreHave then s.lpreImm.extractLsb' s.params.lpreBranchLow.val 23 ++ imm
  else imm.signExtend 32

/-- `index_val` (R54). -/
def State.indexVal (s : State) : Word := if s.indexHave then s.indexReg else 0#32

/-- The effective address of the 8-bit and 16-bit loads and stores (R300). -/
def State.narrowEa (s : State) (rB : Reg) : Word := s.reg rB + s.indexVal

/-- The effective address of `ldr` and `str` (R317). -/
def State.wordEa (s : State) (rB : Reg) (imm : BitVec 5) : Word := s.reg rB + s.indexVal + s.imm5 imm

/-- An operation on the special-purpose register that a field names; a reserved field faults before any effect
(R49). -/
def withSReg (k : SField) (f : SReg → Result) : Result :=
  match SReg.ofField k with
  | some r => f r
  | none => .fault .reservedInstruction

/-! Shifts -/

/-- The amount of a `w`-bit shift, `SHIFT_GE32` applied (R179, R327 (d), U9). -/
def shiftAmount (p : Config.ShiftGe32) (w n : Nat) : Nat :=
  match p with
  | .mathematical => n
  | .modulo => n % w

/-- `LSL` (R179): zeros enter at bit 0; an amount of the width or more leaves 0. -/
def lslBy {w : Nat} (p : Config.ShiftGe32) (v : BitVec w) (n : Nat) : BitVec w :=
  let m := shiftAmount p w n
  if m < w then v <<< m else 0#w

/-- `LSR` (R179): zeros enter at the top; an amount of the width or more leaves 0. -/
def lsrBy {w : Nat} (p : Config.ShiftGe32) (v : BitVec w) (n : Nat) : BitVec w :=
  let m := shiftAmount p w n
  if m < w then v >>> m else 0#w

/-- `ASR` (R179): copies of the sign bit enter at the top; an amount of the width or more leaves nothing else. -/
def asrBy {w : Nat} (p : Config.ShiftGe32) (v : BitVec w) (n : Nat) : BitVec w :=
  v.sshiftRight (min (shiftAmount p w n) (w - 1))

/-- What a narrow shift writes into `rA`: the extended result, or, where `NARROW_UPPER` is `drawn`, the narrow result
below a free value (R327 (b)). -/
def State.writeNarrow {w : Nat} (s : State) (rA : Reg) (r : BitVec w) (extended : Word) : State :=
  match s.params.narrowUpper with
  | .extended => s.setReg rA extended
  | .drawn =>
    let upper := (Config.narrowUpperDraw s.draws).toNat / 2 ^ w * 2 ^ w
    { s.setReg rA (BitVec.ofNat 32 (upper + r.toNat)) with draws := s.draws + 1 }

/-! `ze` and `se` -/

/-- The bit position that `ze` and `se` use; `none` where the register stays as it is (`ZE_SE_RANGE`, R180). -/
def bitPosition (p : Config.ZeSeRange) (imm : Word) : Option Nat :=
  if imm.toNat ≤ 31 then some imm.toNat
  else
    match p with
    | .unchanged => none
    | .lowFive => some (imm.toNat % 32)

/-- "Set `rA[31:simm]` to zero" (R174). -/
def zeroFrom (v : Word) (p : Nat) : Word := v &&& BitVec.ofNat 32 (2 ^ p - 1)

/-- "Sign-extend `rA[simm:0]` to 32 bits" (R175). -/
def signFrom (v : Word) (p : Nat) : Word := if p ≤ 30 then (v.setWidth (p + 1)).signExtend 32 else v

/-! Division -/

/-- Unsigned quotient, rounded down (R282, R288). -/
def quotU {w : Nat} (n d : BitVec w) : BitVec w := BitVec.ofNat w (n.toNat / d.toNat)

/-- Unsigned remainder (R284, R290). -/
def remU {w : Nat} (n d : BitVec w) : BitVec w := BitVec.ofNat w (n.toNat % d.toNat)

/-- Signed quotient, rounded toward zero; the one overflow wraps (R293). -/
def quotS {w : Nat} (n d : BitVec w) : BitVec w := BitVec.ofInt w (n.toInt.tdiv d.toInt)

/-- Signed remainder `n - q * d`, with the sign of the dividend (R293). -/
def remS {w : Nat} (n d : BitVec w) : BitVec w := BitVec.ofInt w (n.toInt - n.toInt.tdiv d.toInt * d.toInt)

/-- A 32-bit divide or modulo into `rA`; a zero divisor gives the free value of `DIV0` (R294, log 6). -/
def State.divide (s : State) (op : Config.DivOp) (rA rB : Reg) (f : Word → Word → Word) : State :=
  let n := s.reg rA
  let d := s.reg rB
  (s.setReg rA (if d.toNat = 0 then Config.div0 op n else f n d)).retire

/-- A 64-bit divide or modulo of `{hi, lo}` by `{rA, rB}` into `{hi, lo}` (R288 to R291, R294). -/
def State.divideLong (s : State) (op : Config.LongDivOp) (rA rB : Reg) (f : DWord → DWord → DWord) : State :=
  let n := s.hilo
  let d : DWord := s.reg rA ++ s.reg rB
  (s.setHilo (if d.toNat = 0 then Config.div0Long op n else f n d)).retire

/-! Results of group 2 -/

/-- An arithmetic result into `rA`; all four flags with it where the `f` bit is 1 (R191, R192). -/
def State.writeSum (s : State) (f : Bool) (rA : Reg) (a : Sum 32) : State :=
  if f then (s.setReg rA a.r).setFlags a.flags else s.setReg rA a.r

/-- A moved, shifted or logical result into `rA`; Z and N with it where the `f` bit is 1 (R191, R192). -/
def State.writeLogic (s : State) (f : Bool) (rA : Reg) (r : Word) : State :=
  if f then (s.setReg rA r).setFlags (s.flags.ofResult r) else s.setReg rA r

end Sys2Proof.Machine
end

