-- ==== Sys2Proof/Machine/Branches.lean ====
section
/-! DEFINITION. Machine/Branches.lean: group 3, relative branches (R224 to R239). -/

namespace Sys2Proof.Machine

/-- `bl simm` (R224): the target is formed, then `lr` is written. -/
def execBl (imm : BitVec 9) (s : State) : Result :=
  .next ((s.jump (s.pc + s.imm9 imm + 2#32)).setReg .lr (s.pc + 2#32))

/-- `bra simm` (R225). -/
def execBra (imm : BitVec 9) (s : State) : Result :=
  .next (s.branch true (s.imm9 imm))

/-- `beq simm` (R226). -/
def execBeq (imm : BitVec 9) (s : State) : Result :=
  .next (s.branch s.flags.eq (s.imm9 imm))

/-- `bne simm` (R227). -/
def execBne (imm : BitVec 9) (s : State) : Result :=
  .next (s.branch s.flags.ne (s.imm9 imm))

/-- `bmi simm` (R228). -/
def execBmi (imm : BitVec 9) (s : State) : Result :=
  .next (s.branch s.flags.mi (s.imm9 imm))

/-- `bpl simm` (R229). -/
def execBpl (imm : BitVec 9) (s : State) : Result :=
  .next (s.branch s.flags.pl (s.imm9 imm))

/-- `bvs simm` (R230). -/
def execBvs (imm : BitVec 9) (s : State) : Result :=
  .next (s.branch s.flags.vs (s.imm9 imm))

/-- `bvc simm` (R231). -/
def execBvc (imm : BitVec 9) (s : State) : Result :=
  .next (s.branch s.flags.vc (s.imm9 imm))

/-- `bgeu simm` (R232). -/
def execBgeu (imm : BitVec 9) (s : State) : Result :=
  .next (s.branch s.flags.geu (s.imm9 imm))

/-- `bltu simm` (R233). -/
def execBltu (imm : BitVec 9) (s : State) : Result :=
  .next (s.branch s.flags.ltu (s.imm9 imm))

/-- `bgtu simm` (R234). -/
def execBgtu (imm : BitVec 9) (s : State) : Result :=
  .next (s.branch s.flags.gtu (s.imm9 imm))

/-- `bleu simm` (R235). -/
def execBleu (imm : BitVec 9) (s : State) : Result :=
  .next (s.branch s.flags.leu (s.imm9 imm))

/-- `bges simm` (R236). -/
def execBges (imm : BitVec 9) (s : State) : Result :=
  .next (s.branch s.flags.ges (s.imm9 imm))

/-- `blts simm` (R237). -/
def execBlts (imm : BitVec 9) (s : State) : Result :=
  .next (s.branch s.flags.lts (s.imm9 imm))

/-- `bgts simm` (R238). -/
def execBgts (imm : BitVec 9) (s : State) : Result :=
  .next (s.branch s.flags.gts (s.imm9 imm))

/-- `bles simm` (R239). -/
def execBles (imm : BitVec 9) (s : State) : Result :=
  .next (s.branch s.flags.les (s.imm9 imm))

end Sys2Proof.Machine
end

