-- ==== Sys2Proof/Machine/Control.lean ====
section
/-! DEFINITION. Machine/Control.lean: group 4, part 1: jumps, interrupt control, special-register copies, stack (R251 to R266). -/

namespace Sys2Proof.Machine

/-- `jl rA` (R251): the target is read before `lr` is written. -/
def execJl (rA : Reg) (s : State) : Result :=
  .next ((s.jump (s.reg rA)).setReg .lr (s.pc + 2#32))

/-- `jmp rA` (R252). -/
def execJmp (rA : Reg) (s : State) : Result :=
  .next (s.jump (s.reg rA))

/-- `jmp ira` (R253). -/
def execJmpIra (s : State) : Result :=
  .next s.returnKeepingIe

/-- `reti` (R254). -/
def execReti (s : State) : Result :=
  .next s.returnEnabling

/-- `cpy rA, sC` (R255). -/
def execCpyFromS (rA : Reg) (sC : SField) (s : State) : Result :=
  withSReg sC fun c => .next (s.setReg rA (s.readS c)).retire

/-- `cpy sA, rB` (R256). -/
def execCpyToS (sA : SField) (rB : Reg) (s : State) : Result :=
  withSReg sA fun a => .next (s.writeS a (s.reg rB)).retire

/-- `cpy sA, sB` (R257). -/
def execCpySS (sA sB : SField) (s : State) : Result :=
  withSReg sA fun a => withSReg sB fun b => .next (s.writeS a (s.readS b)).retire

/-- `ei` (R259). -/
def execEi (s : State) : Result :=
  .next (s.writeS .ie 1#32).retire

/-- `di` (R260). -/
def execDi (s : State) : Result :=
  .next (s.writeS .ie 0#32).retire

/-- `push rA, rB` (R263): nothing where the two are the same register. -/
def execPush (rA rB : Reg) (s : State) : Result :=
  if rA = rB then .next s.retire
  else attempt (s.pushWord rB (s.reg rA)) fun t => .next t.retire

/-- `pop rA, rB` (R264): nothing where the two are the same register. -/
def execPop (rA rB : Reg) (s : State) : Result :=
  if rA = rB then .next s.retire
  else attempt (s.popWord rB) fun (v, t) => .next (t.setReg rA v).retire

/-- `push sA, rB` (R265). -/
def execPushS (sA : SField) (rB : Reg) (s : State) : Result :=
  withSReg sA fun a => attempt (s.pushWord rB (s.readS a)) fun t => .next t.retire

/-- `pop sA, rB` (R266). -/
def execPopS (sA : SField) (rB : Reg) (s : State) : Result :=
  withSReg sA fun a => attempt (s.popWord rB) fun (v, t) => .next (t.writeS a v).retire

end Sys2Proof.Machine
end

