-- ==== Sys2Proof/Machine/Immediate.lean ====
section
/-! DEFINITION. Machine/Immediate.lean: group 1, register and immediate (R162 to R177). -/

namespace Sys2Proof.Machine

/-- `add rA, #simm` (R162). -/
def execAddImm (rA : Reg) (imm : BitVec 5) (s : State) : Result :=
  .next (s.setReg rA (s.reg rA + s.imm5 imm)).retire

/-- `add rA, pc, #simm` (R163). -/
def execAddPcImm (rA : Reg) (imm : BitVec 5) (s : State) : Result :=
  .next (s.setReg rA (s.pc + s.imm5 imm + 2#32)).retire

/-- `add rA, sp, #simm` (R164). -/
def execAddSpImm (rA : Reg) (imm : BitVec 5) (s : State) : Result :=
  .next (s.setReg rA (s.reg .sp + s.imm5 imm)).retire

/-- `add rA, fp, #simm` (R165). -/
def execAddFpImm (rA : Reg) (imm : BitVec 5) (s : State) : Result :=
  .next (s.setReg rA (s.reg .fp + s.imm5 imm)).retire

/-- `cmp rA, #simm` (R166). -/
def execCmpImm (rA : Reg) (imm : BitVec 5) (s : State) : Result :=
  .next (s.setFlags (subC (s.reg rA) (s.imm5 imm)).flags).retire

/-- `cpy rA, #simm` (R167). -/
def execCpyImm (rA : Reg) (imm : BitVec 5) (s : State) : Result :=
  .next (s.setReg rA (s.imm5 imm)).retire

/-- `lsl rA, #simm` (R168). -/
def execLslImm (rA : Reg) (imm : BitVec 5) (s : State) : Result :=
  .next (s.setReg rA (lslBy s.params.shiftGe32 (s.reg rA) (s.imm5 imm).toNat)).retire

/-- `lsr rA, #simm` (R169). -/
def execLsrImm (rA : Reg) (imm : BitVec 5) (s : State) : Result :=
  .next (s.setReg rA (lsrBy s.params.shiftGe32 (s.reg rA) (s.imm5 imm).toNat)).retire

/-- `asr rA, #simm` (R170). -/
def execAsrImm (rA : Reg) (imm : BitVec 5) (s : State) : Result :=
  .next (s.setReg rA (asrBy s.params.shiftGe32 (s.reg rA) (s.imm5 imm).toNat)).retire

/-- `and rA, #simm` (R171). -/
def execAndImm (rA : Reg) (imm : BitVec 5) (s : State) : Result :=
  .next (s.setReg rA (s.reg rA &&& s.imm5 imm)).retire

/-- `orr rA, #simm` (R172). -/
def execOrrImm (rA : Reg) (imm : BitVec 5) (s : State) : Result :=
  .next (s.setReg rA (s.reg rA ||| s.imm5 imm)).retire

/-- `xor rA, #simm` (R173). -/
def execXorImm (rA : Reg) (imm : BitVec 5) (s : State) : Result :=
  .next (s.setReg rA (s.reg rA ^^^ s.imm5 imm)).retire

/-- `ze rA, #simm` (R174); a position outside 0 to 31 as R180 says. -/
def execZeImm (rA : Reg) (imm : BitVec 5) (s : State) : Result :=
  match bitPosition s.params.zeSeRange (s.imm5 imm) with
  | some p => .next (s.setReg rA (zeroFrom (s.reg rA) p)).retire
  | none => .next s.retire

/-- `se rA, #simm` (R175); a position outside 0 to 31 as R180 says. -/
def execSeImm (rA : Reg) (imm : BitVec 5) (s : State) : Result :=
  match bitPosition s.params.zeSeRange (s.imm5 imm) with
  | some p => .next (s.setReg rA (signFrom (s.reg rA) p)).retire
  | none => .next s.retire

/-- `swi rA, #simm` (R176). -/
def execSwiRegImm (rA : Reg) (imm : BitVec 5) (s : State) : Result :=
  .next (s.raiseSwi (s.reg rA + s.imm5 imm))

/-- `swi #simm` (R177). -/
def execSwiImm (imm : BitVec 5) (s : State) : Result :=
  .next (s.raiseSwi (s.imm5 imm))

end Sys2Proof.Machine
end

