-- ==== Sys2Proof/Machine/LoadStore.lean ====
section
/-! DEFINITION. Machine/LoadStore.lean: the eight loads and stores (R302 to R307, R318, R320). -/

namespace Sys2Proof.Machine

/-- `ldub rA, [rB]` (R302). -/
def execLdub (rA rB : Reg) (s : State) : Result :=
  attempt (s.readByte (s.narrowEa rB)) fun v => .next (s.setReg rA (v.zeroExtend 32)).retire

/-- `ldsb rA, [rB]` (R303). -/
def execLdsb (rA rB : Reg) (s : State) : Result :=
  attempt (s.readByte (s.narrowEa rB)) fun v => .next (s.setReg rA (v.signExtend 32)).retire

/-- `lduh rA, [rB]` (R304). -/
def execLduh (rA rB : Reg) (s : State) : Result :=
  attempt (s.readHalf (s.narrowEa rB)) fun v => .next (s.setReg rA (v.zeroExtend 32)).retire

/-- `ldsh rA, [rB]` (R305). -/
def execLdsh (rA rB : Reg) (s : State) : Result :=
  attempt (s.readHalf (s.narrowEa rB)) fun v => .next (s.setReg rA (v.signExtend 32)).retire

/-- `stb rA, [rB]` (R306). -/
def execStb (rA rB : Reg) (s : State) : Result :=
  attempt (s.writeByte (s.narrowEa rB) ((s.reg rA).extractLsb' 0 8)) fun t => .next t.retire

/-- `sth rA, [rB]` (R307). -/
def execSth (rA rB : Reg) (s : State) : Result :=
  attempt (s.writeHalf (s.narrowEa rB) ((s.reg rA).extractLsb' 0 16)) fun t => .next t.retire

/-- `ldr rA, [rB, #simm]` (R318). -/
def execLdr (rA rB : Reg) (imm : BitVec 5) (s : State) : Result :=
  attempt (s.readWord (s.wordEa rB imm)) fun v => .next (s.setReg rA v).retire

/-- `str rA, [rB, #simm]` (R320). -/
def execStr (rA rB : Reg) (imm : BitVec 5) (s : State) : Result :=
  attempt (s.writeWord (s.wordEa rB imm) (s.reg rA)) fun t => .next t.retire

end Sys2Proof.Machine
end

