-- ==== Sys2Proof/Machine/MulDiv.lean ====
section
/-! DEFINITION. Machine/MulDiv.lean: group 4, part 2: multiply, divide, modulo (R281 to R291). -/

namespace Sys2Proof.Machine

/-- `mul rA, rB` (R281). -/
def execMul (rA rB : Reg) (s : State) : Result :=
  .next (s.setReg rA (s.reg rA * s.reg rB)).retire

/-- `udiv rA, rB` (R282). -/
def execUdiv (rA rB : Reg) (s : State) : Result :=
  .next (s.divide .udiv rA rB quotU)

/-- `sdiv rA, rB` (R283). -/
def execSdiv (rA rB : Reg) (s : State) : Result :=
  .next (s.divide .sdiv rA rB quotS)

/-- `umod rA, rB` (R284). -/
def execUmod (rA rB : Reg) (s : State) : Result :=
  .next (s.divide .umod rA rB remU)

/-- `smod rA, rB` (R285). -/
def execSmod (rA rB : Reg) (s : State) : Result :=
  .next (s.divide .smod rA rB remS)

/-- `lumul rA, rB` (R286). -/
def execLumul (rA rB : Reg) (s : State) : Result :=
  .next (s.setHilo (BitVec.ofNat 64 ((s.reg rA).toNat * (s.reg rB).toNat))).retire

/-- `lsmul rA, rB` (R287). -/
def execLsmul (rA rB : Reg) (s : State) : Result :=
  .next (s.setHilo (BitVec.ofInt 64 ((s.reg rA).toInt * (s.reg rB).toInt))).retire

/-- `ludiv rA, rB` (R288). -/
def execLudiv (rA rB : Reg) (s : State) : Result :=
  .next (s.divideLong .ludiv rA rB quotU)

/-- `lsdiv rA, rB` (R289). -/
def execLsdiv (rA rB : Reg) (s : State) : Result :=
  .next (s.divideLong .lsdiv rA rB quotS)

/-- `lumod rA, rB` (R290). -/
def execLumod (rA rB : Reg) (s : State) : Result :=
  .next (s.divideLong .lumod rA rB remU)

/-- `lsmod rA, rB` (R291). -/
def execLsmod (rA rB : Reg) (s : State) : Result :=
  .next (s.divideLong .lsmod rA rB remS)

end Sys2Proof.Machine
end

