-- ==== Sys2Proof/Machine/Narrow.lean ====
section
/-! DEFINITION. Machine/Narrow.lean: group 7, subgroup 0b00: narrow compares and shifts (R328 to R333). -/

namespace Sys2Proof.Machine

/-- `cmpb rA, rB` (R328, R334). -/
def execCmpb (rA rB : Reg) (s : State) : Result :=
  let a := (s.reg rA).extractLsb' 0 8
  let b := (s.reg rB).extractLsb' 0 8
  .next (s.setFlags (subC a b).flags).retire

/-- `cmph rA, rB` (R329, R334). -/
def execCmph (rA rB : Reg) (s : State) : Result :=
  let a := (s.reg rA).extractLsb' 0 16
  let b := (s.reg rB).extractLsb' 0 16
  .next (s.setFlags (subC a b).flags).retire

/-- `lsrb rA, rB` (R330). -/
def execLsrb (rA rB : Reg) (s : State) : Result :=
  let r := lsrBy s.params.shiftGe32 ((s.reg rA).extractLsb' 0 8) (s.reg rB).toNat
  .next (s.writeNarrow rA r (r.zeroExtend 32)).retire

/-- `lsrh rA, rB` (R331). -/
def execLsrh (rA rB : Reg) (s : State) : Result :=
  let r := lsrBy s.params.shiftGe32 ((s.reg rA).extractLsb' 0 16) (s.reg rB).toNat
  .next (s.writeNarrow rA r (r.zeroExtend 32)).retire

/-- `asrb rA, rB` (R332). -/
def execAsrb (rA rB : Reg) (s : State) : Result :=
  let r := asrBy s.params.shiftGe32 ((s.reg rA).extractLsb' 0 8) (s.reg rB).toNat
  .next (s.writeNarrow rA r (r.signExtend 32)).retire

/-- `asrh rA, rB` (R333). -/
def execAsrh (rA rB : Reg) (s : State) : Result :=
  let r := asrBy s.params.shiftGe32 ((s.reg rA).extractLsb' 0 16) (s.reg rB).toNat
  .next (s.writeNarrow rA r (r.signExtend 32)).retire

end Sys2Proof.Machine
end

