-- ==== Sys2Proof/Machine/Prefixes.lean ====
section
/-! DEFINITION. Machine/Prefixes.lean: the meanings of `pre`, `lpre` and `index` (R142, R143, R258), by the state table of R146. -/

namespace Sys2Proof.Machine

/-- `pre` (R142): with a `pre` or `lpre` in effect it is a NOP that clears all three bits. -/
def execPre (imm : BitVec 12) (s : State) : Result :=
  let t := if s.preHave || s.lpreHave then s.clearPrefix else { s with preHave := true, preImm := imm }
  .next (t.setPc (s.pc + 2#32))

/-- `lpre` (R143): as `pre`, but four bytes long, also where it is a NOP. -/
def execLpre (imm : BitVec 27) (s : State) : Result :=
  let t := if s.preHave || s.lpreHave then s.clearPrefix else { s with lpreHave := true, lpreImm := imm }
  .next (t.setPc (s.pc + 4#32))

/-- `index rA` (R258): with an `index` in effect it is a NOP that clears all three bits. -/
def execIndex (rA : Reg) (s : State) : Result :=
  let t := if s.indexHave then s.clearPrefix else { s with indexHave := true, indexReg := s.reg rA }
  .next (t.setPc (s.pc + 2#32))

end Sys2Proof.Machine
end

