-- ==== Sys2Proof/Machine/Register.lean ====
section
/-! DEFINITION. Machine/Register.lean: group 2, register and register, each plain and `.f` form (R195 to R209). -/

namespace Sys2Proof.Machine

/-- `add rA, rB` (R195). -/
def execAdd (rA rB : Reg) (s : State) : Result :=
  .next (s.writeSum false rA (addC (s.reg rA) (s.reg rB) false)).retire

/-- `add.f rA, rB` (R195). -/
def execAddF (rA rB : Reg) (s : State) : Result :=
  .next (s.writeSum true rA (addC (s.reg rA) (s.reg rB) false)).retire

/-- `sub rA, rB` (R196). -/
def execSub (rA rB : Reg) (s : State) : Result :=
  .next (s.writeSum false rA (subC (s.reg rA) (s.reg rB))).retire

/-- `sub.f rA, rB` (R196). -/
def execSubF (rA rB : Reg) (s : State) : Result :=
  .next (s.writeSum true rA (subC (s.reg rA) (s.reg rB))).retire

/-- `add rA, sp, rB` (R197). -/
def execAddSp (rA rB : Reg) (s : State) : Result :=
  .next (s.writeSum false rA (addC (s.reg .sp) (s.reg rB) false)).retire

/-- `add.f rA, sp, rB` (R197). -/
def execAddSpF (rA rB : Reg) (s : State) : Result :=
  .next (s.writeSum true rA (addC (s.reg .sp) (s.reg rB) false)).retire

/-- `add rA, fp, rB` (R198). -/
def execAddFp (rA rB : Reg) (s : State) : Result :=
  .next (s.writeSum false rA (addC (s.reg .fp) (s.reg rB) false)).retire

/-- `add.f rA, fp, rB` (R198). -/
def execAddFpF (rA rB : Reg) (s : State) : Result :=
  .next (s.writeSum true rA (addC (s.reg .fp) (s.reg rB) false)).retire

/-- `cmp rA, rB` (R199): the `f` bit is ignored. -/
def execCmp (rA rB : Reg) (s : State) : Result :=
  .next (s.setFlags (subC (s.reg rA) (s.reg rB)).flags).retire

/-- `cpy rA, rB` (R200). -/
def execCpy (rA rB : Reg) (s : State) : Result :=
  .next (s.writeLogic false rA (s.reg rB)).retire

/-- `cpy.f rA, rB` (R200). -/
def execCpyF (rA rB : Reg) (s : State) : Result :=
  .next (s.writeLogic true rA (s.reg rB)).retire

/-- `lsl rA, rB` (R201). -/
def execLsl (rA rB : Reg) (s : State) : Result :=
  .next (s.writeLogic false rA (lslBy s.params.shiftGe32 (s.reg rA) (s.reg rB).toNat)).retire

/-- `lsl.f rA, rB` (R201). -/
def execLslF (rA rB : Reg) (s : State) : Result :=
  .next (s.writeLogic true rA (lslBy s.params.shiftGe32 (s.reg rA) (s.reg rB).toNat)).retire

/-- `lsr rA, rB` (R202). -/
def execLsr (rA rB : Reg) (s : State) : Result :=
  .next (s.writeLogic false rA (lsrBy s.params.shiftGe32 (s.reg rA) (s.reg rB).toNat)).retire

/-- `lsr.f rA, rB` (R202). -/
def execLsrF (rA rB : Reg) (s : State) : Result :=
  .next (s.writeLogic true rA (lsrBy s.params.shiftGe32 (s.reg rA) (s.reg rB).toNat)).retire

/-- `asr rA, rB` (R203). -/
def execAsr (rA rB : Reg) (s : State) : Result :=
  .next (s.writeLogic false rA (asrBy s.params.shiftGe32 (s.reg rA) (s.reg rB).toNat)).retire

/-- `asr.f rA, rB` (R203). -/
def execAsrF (rA rB : Reg) (s : State) : Result :=
  .next (s.writeLogic true rA (asrBy s.params.shiftGe32 (s.reg rA) (s.reg rB).toNat)).retire

/-- `and rA, rB` (R204). -/
def execAnd (rA rB : Reg) (s : State) : Result :=
  .next (s.writeLogic false rA (s.reg rA &&& s.reg rB)).retire

/-- `and.f rA, rB` (R204). -/
def execAndF (rA rB : Reg) (s : State) : Result :=
  .next (s.writeLogic true rA (s.reg rA &&& s.reg rB)).retire

/-- `orr rA, rB` (R205). -/
def execOrr (rA rB : Reg) (s : State) : Result :=
  .next (s.writeLogic false rA (s.reg rA ||| s.reg rB)).retire

/-- `orr.f rA, rB` (R205). -/
def execOrrF (rA rB : Reg) (s : State) : Result :=
  .next (s.writeLogic true rA (s.reg rA ||| s.reg rB)).retire

/-- `xor rA, rB` (R206). -/
def execXor (rA rB : Reg) (s : State) : Result :=
  .next (s.writeLogic false rA (s.reg rA ^^^ s.reg rB)).retire

/-- `xor.f rA, rB` (R206). -/
def execXorF (rA rB : Reg) (s : State) : Result :=
  .next (s.writeLogic true rA (s.reg rA ^^^ s.reg rB)).retire

/-- `adc rA, rB` (R208). -/
def execAdc (rA rB : Reg) (s : State) : Result :=
  .next (s.writeSum false rA (addC (s.reg rA) (s.reg rB) s.flags.c)).retire

/-- `adc.f rA, rB` (R208). -/
def execAdcF (rA rB : Reg) (s : State) : Result :=
  .next (s.writeSum true rA (addC (s.reg rA) (s.reg rB) s.flags.c)).retire

/-- `sbc rA, rB` (R209). -/
def execSbc (rA rB : Reg) (s : State) : Result :=
  .next (s.writeSum false rA (addC (s.reg rA) (~~~(s.reg rB)) s.flags.c)).retire

/-- `sbc.f rA, rB` (R209). -/
def execSbcF (rA rB : Reg) (s : State) : Result :=
  .next (s.writeSum true rA (addC (s.reg rA) (~~~(s.reg rB)) s.flags.c)).retire

end Sys2Proof.Machine
end

