-- ==== Sys2Proof/Machine/Dispatch.lean ====
section
/-! DEFINITION. Machine/Dispatch.lean: one arm per constructor of Instr, one direct call of its meaning. -/

namespace Sys2Proof.Machine

def exec (i : Instr) (s : State) : Host.Outcome State Fault Refusal :=
  match i with
  | .pre imm => Sys2Proof.Machine.execPre imm s
  | .lpre imm => Sys2Proof.Machine.execLpre imm s
  | .addImm rA imm => Sys2Proof.Machine.execAddImm rA imm s
  | .addPcImm rA imm => Sys2Proof.Machine.execAddPcImm rA imm s
  | .addSpImm rA imm => Sys2Proof.Machine.execAddSpImm rA imm s
  | .addFpImm rA imm => Sys2Proof.Machine.execAddFpImm rA imm s
  | .cmpImm rA imm => Sys2Proof.Machine.execCmpImm rA imm s
  | .cpyImm rA imm => Sys2Proof.Machine.execCpyImm rA imm s
  | .lslImm rA imm => Sys2Proof.Machine.execLslImm rA imm s
  | .lsrImm rA imm => Sys2Proof.Machine.execLsrImm rA imm s
  | .asrImm rA imm => Sys2Proof.Machine.execAsrImm rA imm s
  | .andImm rA imm => Sys2Proof.Machine.execAndImm rA imm s
  | .orrImm rA imm => Sys2Proof.Machine.execOrrImm rA imm s
  | .xorImm rA imm => Sys2Proof.Machine.execXorImm rA imm s
  | .zeImm rA imm => Sys2Proof.Machine.execZeImm rA imm s
  | .seImm rA imm => Sys2Proof.Machine.execSeImm rA imm s
  | .swiRegImm rA imm => Sys2Proof.Machine.execSwiRegImm rA imm s
  | .swiImm imm => Sys2Proof.Machine.execSwiImm imm s
  | .add rA rB => Sys2Proof.Machine.execAdd rA rB s
  | .addF rA rB => Sys2Proof.Machine.execAddF rA rB s
  | .sub rA rB => Sys2Proof.Machine.execSub rA rB s
  | .subF rA rB => Sys2Proof.Machine.execSubF rA rB s
  | .addSp rA rB => Sys2Proof.Machine.execAddSp rA rB s
  | .addSpF rA rB => Sys2Proof.Machine.execAddSpF rA rB s
  | .addFp rA rB => Sys2Proof.Machine.execAddFp rA rB s
  | .addFpF rA rB => Sys2Proof.Machine.execAddFpF rA rB s
  | .cmp rA rB => Sys2Proof.Machine.execCmp rA rB s
  | .cpy rA rB => Sys2Proof.Machine.execCpy rA rB s
  | .cpyF rA rB => Sys2Proof.Machine.execCpyF rA rB s
  | .lsl rA rB => Sys2Proof.Machine.execLsl rA rB s
  | .lslF rA rB => Sys2Proof.Machine.execLslF rA rB s
  | .lsr rA rB => Sys2Proof.Machine.execLsr rA rB s
  | .lsrF rA rB => Sys2Proof.Machine.execLsrF rA rB s
  | .asr rA rB => Sys2Proof.Machine.execAsr rA rB s
  | .asrF rA rB => Sys2Proof.Machine.execAsrF rA rB s
  | .and rA rB => Sys2Proof.Machine.execAnd rA rB s
  | .andF rA rB => Sys2Proof.Machine.execAndF rA rB s
  | .orr rA rB => Sys2Proof.Machine.execOrr rA rB s
  | .orrF rA rB => Sys2Proof.Machine.execOrrF rA rB s
  | .xor rA rB => Sys2Proof.Machine.execXor rA rB s
  | .xorF rA rB => Sys2Proof.Machine.execXorF rA rB s
  | .adc rA rB => Sys2Proof.Machine.execAdc rA rB s
  | .adcF rA rB => Sys2Proof.Machine.execAdcF rA rB s
  | .sbc rA rB => Sys2Proof.Machine.execSbc rA rB s
  | .sbcF rA rB => Sys2Proof.Machine.execSbcF rA rB s
  | .bl imm => Sys2Proof.Machine.execBl imm s
  | .bra imm => Sys2Proof.Machine.execBra imm s
  | .beq imm => Sys2Proof.Machine.execBeq imm s
  | .bne imm => Sys2Proof.Machine.execBne imm s
  | .bmi imm => Sys2Proof.Machine.execBmi imm s
  | .bpl imm => Sys2Proof.Machine.execBpl imm s
  | .bvs imm => Sys2Proof.Machine.execBvs imm s
  | .bvc imm => Sys2Proof.Machine.execBvc imm s
  | .bgeu imm => Sys2Proof.Machine.execBgeu imm s
  | .bltu imm => Sys2Proof.Machine.execBltu imm s
  | .bgtu imm => Sys2Proof.Machine.execBgtu imm s
  | .bleu imm => Sys2Proof.Machine.execBleu imm s
  | .bges imm => Sys2Proof.Machine.execBges imm s
  | .blts imm => Sys2Proof.Machine.execBlts imm s
  | .bgts imm => Sys2Proof.Machine.execBgts imm s
  | .bles imm => Sys2Proof.Machine.execBles imm s
  | .jl rA => Sys2Proof.Machine.execJl rA s
  | .jmp rA => Sys2Proof.Machine.execJmp rA s
  | .jmpIra => Sys2Proof.Machine.execJmpIra s
  | .reti => Sys2Proof.Machine.execReti s
  | .cpyFromS rA sC => Sys2Proof.Machine.execCpyFromS rA sC s
  | .cpyToS sA rB => Sys2Proof.Machine.execCpyToS sA rB s
  | .cpySS sA sB => Sys2Proof.Machine.execCpySS sA sB s
  | .index rA => Sys2Proof.Machine.execIndex rA s
  | .ei => Sys2Proof.Machine.execEi s
  | .di => Sys2Proof.Machine.execDi s
  | .push rA rB => Sys2Proof.Machine.execPush rA rB s
  | .pop rA rB => Sys2Proof.Machine.execPop rA rB s
  | .pushS sA rB => Sys2Proof.Machine.execPushS sA rB s
  | .popS sA rB => Sys2Proof.Machine.execPopS sA rB s
  | .mul rA rB => Sys2Proof.Machine.execMul rA rB s
  | .udiv rA rB => Sys2Proof.Machine.execUdiv rA rB s
  | .sdiv rA rB => Sys2Proof.Machine.execSdiv rA rB s
  | .umod rA rB => Sys2Proof.Machine.execUmod rA rB s
  | .smod rA rB => Sys2Proof.Machine.execSmod rA rB s
  | .lumul rA rB => Sys2Proof.Machine.execLumul rA rB s
  | .lsmul rA rB => Sys2Proof.Machine.execLsmul rA rB s
  | .ludiv rA rB => Sys2Proof.Machine.execLudiv rA rB s
  | .lsdiv rA rB => Sys2Proof.Machine.execLsdiv rA rB s
  | .lumod rA rB => Sys2Proof.Machine.execLumod rA rB s
  | .lsmod rA rB => Sys2Proof.Machine.execLsmod rA rB s
  | .ldub rA rB => Sys2Proof.Machine.execLdub rA rB s
  | .ldsb rA rB => Sys2Proof.Machine.execLdsb rA rB s
  | .lduh rA rB => Sys2Proof.Machine.execLduh rA rB s
  | .ldsh rA rB => Sys2Proof.Machine.execLdsh rA rB s
  | .stb rA rB => Sys2Proof.Machine.execStb rA rB s
  | .sth rA rB => Sys2Proof.Machine.execSth rA rB s
  | .ldr rA rB imm => Sys2Proof.Machine.execLdr rA rB imm s
  | .str rA rB imm => Sys2Proof.Machine.execStr rA rB imm s
  | .cmpb rA rB => Sys2Proof.Machine.execCmpb rA rB s
  | .cmph rA rB => Sys2Proof.Machine.execCmph rA rB s
  | .lsrb rA rB => Sys2Proof.Machine.execLsrb rA rB s
  | .lsrh rA rB => Sys2Proof.Machine.execLsrh rA rB s
  | .asrb rA rB => Sys2Proof.Machine.execAsrb rA rB s
  | .asrh rA rB => Sys2Proof.Machine.execAsrh rA rB s

end Sys2Proof.Machine
end

