-- ==== Sys2Proof/Machine/Fetch.lean ====
section
/-! DEFINITION. Machine/Fetch.lean: fetching the bytes of the instruction at `pc` and decoding them (R77, R78). -/

namespace Sys2Proof.Machine

/-- `Fetch(a)` (R78): the two bytes of the halfword at an even, backed address, in memory order. -/
def State.fetchHalf (s : State) (a : Word) : Except Fault (Byte × Byte) := do
  if a.toNat % 2 ≠ 0 then throw .misalignedFetch
  if !s.backedAll a 2 then throw .accessRefused
  let b0 ← s.loadByte a
  let b1 ← s.loadByte (a + 1#32)
  return (b0, b1)

/-- The bytes of the instruction at `pc`: a second halfword where the first says `lpre` (R78, R100). -/
def State.fetchBytes (s : State) : Except Fault (List Byte) := do
  let (b0, b1) ← s.fetchHalf s.pc
  if isLpre (b0 ++ b1) then
    let (b2, b3) ← s.fetchHalf (s.pc + 2#32)
    return [b0, b1, b2, b3]
  else return [b0, b1]

/-- The instruction at `pc`; bytes that are none fault (R120). -/
def State.fetchInstr (s : State) : Except Fault Instr := do
  let bs ← s.fetchBytes
  match decode bs with
  | .ok (i, _) => return i
  | .error _ => throw .reservedInstruction

/-- `s` with the two halfwords of an opcode-table word stored at `pc`, and no IRQ to be taken before it. -/
def State.placeInstr (s : State) (nbits w : Nat) : State :=
  { s with
    mem := s.mem.writeBytes s.pc (tableBytes nbits w),
    irqPending := s.irqPending && !s.irqAccepted }

end Sys2Proof.Machine
end

