-- ==== Sys2Proof/Machine/Step.lean ====
section
/-! DEFINITION. Machine/Step.lean: one step of the machine (R17), and a word placed where the next step fetches. -/

namespace Sys2Proof.Machine

/-- One step (R17): an IRQ that can be serviced is taken, and ends the step; otherwise the instruction at `pc` is
fetched, decoded and executed. The interrupt-request input is then sampled anew for the next boundary (R346). -/
def step (s : State) : Host.Outcome State Fault Refusal :=
  if s.irqAccepted then sampled (.next s.irqEntry)
  else attempt s.fetchInstr fun i => sampled (exec i s)

/-- `s` with the instruction that the word `w` of an opcode-table row stands for where `step` fetches next. It stands
for the launch, which loads a program from outside the machine (R88, log 13). -/
def State.withFetchWord (s : State) (nbits w : Nat) : State := s.placeInstr nbits w

end Sys2Proof.Machine
end

