-- ==== Sys2Proof/Safety.lean ====
section
/-! DEFINITION. Safety.lean: the terms that claims about the machine use: what every instruction may write, the ends of
an instruction written out, the invariant that every step keeps, and when a step goes on. -/

namespace Sys2Proof.Machine

/-- The step goes on: it ends in no fault and no refusal. -/
def State.goesOn (s : State) : Prop := ∃ t, step s = .next t

/-- The state that an instruction leaves which writes what `t` holds, does not transfer control and is no prefix: `pc`
is moved on by 2 and no prefix is in effect (R38, R146). -/
def completed (t : State) : State :=
  { t with pc := t.pc + 2#32, preHave := false, lpreHave := false, indexHave := false }

/-- The same for a control transfer to `target` (R152). -/
def transferred (t : State) (target : Word) : State :=
  { t with pc := target, preHave := false, lpreHave := false, indexHave := false }

/-- What the state `t` becomes at the next boundary, where the environment drives the interrupt-request input (R346). -/
def atNextBoundary (t : State) : State :=
  match t.irqSource with
  | [] => t
  | b :: bs => { t with irqPending := b, irqSource := bs }

/-- The invariant of every step: memory is in its canonical form, every listed byte lies where `MEM_MAP` backs it, and
`pre` and `lpre` are not both in effect (R150). -/
def State.Inv (s : State) : Prop :=
  s.mem.wf ∧ (∀ p ∈ s.mem, s.backed (BitVec.ofNat 32 p.1) = true) ∧ ¬(s.preHave = true ∧ s.lpreHave = true)

/-- The address `b` is none of the `n` bytes from `a` on (modulo 2^32). -/
def outside (a : Word) (n : Nat) (b : Word) : Prop := ∀ k, k < n → b ≠ a + BitVec.ofNat 32 k

end Sys2Proof.Machine

namespace Sys2Proof

/-- `pre`, `lpre` and `index` (R146). -/
def Instr.isPrefix : Instr → Bool
  | .pre _ | .lpre _ | .index _ => true
  | .addImm _ _ | .addPcImm _ _ | .addSpImm _ _ | .addFpImm _ _ | .cmpImm _ _ | .cpyImm _ _ | .lslImm _ _
  | .lsrImm _ _ | .asrImm _ _ | .andImm _ _ | .orrImm _ _ | .xorImm _ _ | .zeImm _ _ | .seImm _ _
  | .swiRegImm _ _ | .swiImm _ | .add _ _ | .addF _ _ | .sub _ _ | .subF _ _ | .addSp _ _ | .addSpF _ _
  | .addFp _ _ | .addFpF _ _ | .cmp _ _ | .cpy _ _ | .cpyF _ _ | .lsl _ _ | .lslF _ _ | .lsr _ _ | .lsrF _ _
  | .asr _ _ | .asrF _ _ | .and _ _ | .andF _ _ | .orr _ _ | .orrF _ _ | .xor _ _ | .xorF _ _ | .adc _ _
  | .adcF _ _ | .sbc _ _ | .sbcF _ _ | .bl _ | .bra _ | .beq _ | .bne _ | .bmi _ | .bpl _ | .bvs _ | .bvc _
  | .bgeu _ | .bltu _ | .bgtu _ | .bleu _ | .bges _ | .blts _ | .bgts _ | .bles _ | .jl _ | .jmp _ | .jmpIra
  | .reti | .cpyFromS _ _ | .cpyToS _ _ | .cpySS _ _ | .ei | .di | .push _ _ | .pop _ _ | .pushS _ _ | .popS _ _
  | .mul _ _ | .udiv _ _ | .sdiv _ _ | .umod _ _ | .smod _ _ | .lumul _ _ | .lsmul _ _ | .ludiv _ _ | .lsdiv _ _
  | .lumod _ _ | .lsmod _ _ | .ldub _ _ | .ldsb _ _ | .lduh _ _ | .ldsh _ _ | .stb _ _ | .sth _ _ | .ldr _ _ _
  | .str _ _ _ | .cmpb _ _ | .cmph _ _ | .lsrb _ _ | .lsrh _ _ | .asrb _ _ | .asrh _ _ => false

/-- The instructions that may set `pc` to something else than the next address (R36): the branches, the jumps,
`reti` and `swi`. -/
def Instr.transfersControl : Instr → Bool
  | .bl _ | .bra _ | .beq _ | .bne _ | .bmi _ | .bpl _ | .bvs _ | .bvc _ | .bgeu _ | .bltu _ | .bgtu _ | .bleu _
  | .bges _ | .blts _ | .bgts _ | .bles _ | .jl _ | .jmp _ | .jmpIra | .reti | .swiRegImm _ _ | .swiImm _ => true
  | .pre _ | .lpre _ | .addImm _ _ | .addPcImm _ _ | .addSpImm _ _ | .addFpImm _ _ | .cmpImm _ _ | .cpyImm _ _
  | .lslImm _ _ | .lsrImm _ _ | .asrImm _ _ | .andImm _ _ | .orrImm _ _ | .xorImm _ _ | .zeImm _ _ | .seImm _ _
  | .add _ _ | .addF _ _ | .sub _ _ | .subF _ _ | .addSp _ _ | .addSpF _ _ | .addFp _ _ | .addFpF _ _ | .cmp _ _
  | .cpy _ _ | .cpyF _ _ | .lsl _ _ | .lslF _ _ | .lsr _ _ | .lsrF _ _ | .asr _ _ | .asrF _ _ | .and _ _
  | .andF _ _ | .orr _ _ | .orrF _ _ | .xor _ _ | .xorF _ _ | .adc _ _ | .adcF _ _ | .sbc _ _ | .sbcF _ _
  | .cpyFromS _ _ | .cpyToS _ _ | .cpySS _ _ | .index _ | .ei | .di | .push _ _ | .pop _ _ | .pushS _ _
  | .popS _ _ | .mul _ _ | .udiv _ _ | .sdiv _ _ | .umod _ _ | .smod _ _ | .lumul _ _ | .lsmul _ _ | .ludiv _ _
  | .lsdiv _ _ | .lumod _ _ | .lsmod _ _ | .ldub _ _ | .ldsb _ _ | .lduh _ _ | .ldsh _ _ | .stb _ _ | .sth _ _
  | .ldr _ _ _ | .str _ _ _ | .cmpb _ _ | .cmph _ _ | .lsrb _ _ | .lsrh _ _ | .asrb _ _ | .asrh _ _ => false

/-- The general registers that the rules of an instruction let it write. -/
def Instr.generalWritten : Instr → List Reg
  | .addImm rA _ | .addPcImm rA _ | .addSpImm rA _ | .addFpImm rA _ | .cpyImm rA _ | .lslImm rA _ | .lsrImm rA _
  | .asrImm rA _ | .andImm rA _ | .orrImm rA _ | .xorImm rA _ | .zeImm rA _ | .seImm rA _ => [rA]
  | .add rA _ | .addF rA _ | .sub rA _ | .subF rA _ | .addSp rA _ | .addSpF rA _ | .addFp rA _ | .addFpF rA _
  | .cpy rA _ | .cpyF rA _ | .lsl rA _ | .lslF rA _ | .lsr rA _ | .lsrF rA _ | .asr rA _ | .asrF rA _
  | .and rA _ | .andF rA _ | .orr rA _ | .orrF rA _ | .xor rA _ | .xorF rA _ | .adc rA _ | .adcF rA _
  | .sbc rA _ | .sbcF rA _ | .mul rA _ | .udiv rA _ | .sdiv rA _ | .umod rA _ | .smod rA _ | .ldub rA _
  | .ldsb rA _ | .lduh rA _ | .ldsh rA _ | .lsrb rA _ | .lsrh rA _ | .asrb rA _ | .asrh rA _ => [rA]
  | .cpyFromS rA _ => [rA]
  | .ldr rA _ _ => [rA]
  | .bl _ | .jl _ => [.lr]
  | .push _ rB | .pushS _ rB | .popS _ rB => [rB]
  | .pop rA rB => [rA, rB]
  | .pre _ | .lpre _ | .cmpImm _ _ | .swiRegImm _ _ | .swiImm _ | .cmp _ _ | .bra _ | .beq _ | .bne _ | .bmi _
  | .bpl _ | .bvs _ | .bvc _ | .bgeu _ | .bltu _ | .bgtu _ | .bleu _ | .bges _ | .blts _ | .bgts _ | .bles _
  | .jmp _ | .jmpIra | .reti | .cpyToS _ _ | .cpySS _ _ | .index _ | .ei | .di | .lumul _ _ | .lsmul _ _
  | .ludiv _ _ | .lsdiv _ _ | .lumod _ _ | .lsmod _ _ | .stb _ _ | .sth _ _ | .str _ _ _ | .cmpb _ _ | .cmph _ _ => []

/-- The special-purpose registers that the rules of an instruction let it write (R43, R46). -/
def Instr.specialWritten : Instr → List SReg
  | .cmpImm _ _ | .cmp _ _ | .addF _ _ | .subF _ _ | .addSpF _ _ | .addFpF _ _ | .cpyF _ _ | .lslF _ _
  | .lsrF _ _ | .asrF _ _ | .andF _ _ | .orrF _ _ | .xorF _ _ | .adcF _ _ | .sbcF _ _ | .cmpb _ _ | .cmph _ _ => [.flags]
  | .lumul _ _ | .lsmul _ _ | .ludiv _ _ | .lsdiv _ _ | .lumod _ _ | .lsmod _ _ => [.hi, .lo]
  | .cpyToS sA _ | .popS sA _ => (SReg.ofField sA).toList
  | .cpySS sA _ => (SReg.ofField sA).toList
  | .swiRegImm _ _ | .swiImm _ => [.sty, .ity, .ira, .ie]
  | .reti | .ei | .di => [.ie]
  | .pre _ | .lpre _ | .addImm _ _ | .addPcImm _ _ | .addSpImm _ _ | .addFpImm _ _ | .cpyImm _ _ | .lslImm _ _
  | .lsrImm _ _ | .asrImm _ _ | .andImm _ _ | .orrImm _ _ | .xorImm _ _ | .zeImm _ _ | .seImm _ _ | .add _ _
  | .sub _ _ | .addSp _ _ | .addFp _ _ | .cpy _ _ | .lsl _ _ | .lsr _ _ | .asr _ _ | .and _ _ | .orr _ _
  | .xor _ _ | .adc _ _ | .sbc _ _ | .bl _ | .bra _ | .beq _ | .bne _ | .bmi _ | .bpl _ | .bvs _ | .bvc _
  | .bgeu _ | .bltu _ | .bgtu _ | .bleu _ | .bges _ | .blts _ | .bgts _ | .bles _ | .jl _ | .jmp _ | .jmpIra
  | .cpyFromS _ _ | .index _ | .push _ _ | .pop _ _ | .pushS _ _ | .mul _ _ | .udiv _ _ | .sdiv _ _ | .umod _ _
  | .smod _ _ | .ldub _ _ | .ldsb _ _ | .lduh _ _ | .ldsh _ _ | .stb _ _ | .sth _ _ | .ldr _ _ _ | .str _ _ _
  | .lsrb _ _ | .lsrh _ _ | .asrb _ _ | .asrh _ _ => []

end Sys2Proof

namespace Sys2Proof.Machine

/-- The address and the length of the bytes that an instruction stores (R71), computed as its meaning computes them. -/
def storedBytes (s : State) : Instr → Option (Word × Nat)
  | .stb _ rB => some (s.narrowEa rB, 1)
  | .sth _ rB => some (s.narrowEa rB, 2)
  | .str _ rB imm => some (s.wordEa rB imm, 4)
  | .push rA rB => if rA = rB then none else some (s.reg rB, 4)
  | .pushS _ rB => some (s.reg rB, 4)
  | .pre _ | .lpre _ | .addImm _ _ | .addPcImm _ _ | .addSpImm _ _ | .addFpImm _ _ | .cmpImm _ _ | .cpyImm _ _
  | .lslImm _ _ | .lsrImm _ _ | .asrImm _ _ | .andImm _ _ | .orrImm _ _ | .xorImm _ _ | .zeImm _ _ | .seImm _ _
  | .swiRegImm _ _ | .swiImm _ | .add _ _ | .addF _ _ | .sub _ _ | .subF _ _ | .addSp _ _ | .addSpF _ _
  | .addFp _ _ | .addFpF _ _ | .cmp _ _ | .cpy _ _ | .cpyF _ _ | .lsl _ _ | .lslF _ _ | .lsr _ _ | .lsrF _ _
  | .asr _ _ | .asrF _ _ | .and _ _ | .andF _ _ | .orr _ _ | .orrF _ _ | .xor _ _ | .xorF _ _ | .adc _ _
  | .adcF _ _ | .sbc _ _ | .sbcF _ _ | .bl _ | .bra _ | .beq _ | .bne _ | .bmi _ | .bpl _ | .bvs _ | .bvc _
  | .bgeu _ | .bltu _ | .bgtu _ | .bleu _ | .bges _ | .blts _ | .bgts _ | .bles _ | .jl _ | .jmp _ | .jmpIra
  | .reti | .cpyFromS _ _ | .cpyToS _ _ | .cpySS _ _ | .index _ | .ei | .di | .pop _ _ | .popS _ _ | .mul _ _
  | .udiv _ _ | .sdiv _ _ | .umod _ _ | .smod _ _ | .lumul _ _ | .lsmul _ _ | .ludiv _ _ | .lsdiv _ _
  | .lumod _ _ | .lsmod _ _ | .ldub _ _ | .ldsb _ _ | .lduh _ _ | .ldsh _ _ | .ldr _ _ _ | .cmpb _ _ | .cmph _ _
  | .lsrb _ _ | .lsrh _ _ | .asrb _ _ | .asrh _ _ => none

/-- The address `b` is none of the bytes that the instruction stores. -/
def notStored (s : State) (i : Instr) (b : Word) : Prop := ∀ a n, storedBytes s i = some (a, n) → outside a n b

end Sys2Proof.Machine
end

