-- ==== Sys2Proof/Certificates/Slice0/Obligations.lean ====
section
/-! DEFINITION. Certificates/Slice0/Obligations.lean: the statements for the provers. OBLIGATIONS.json lists each with
its tier, its basis and the rules it cites. A docstring that names a log entry says which clause is a choice of the
spec or of the model, not of the manual. -/

open Sys2Proof Sys2Proof.Machine

/-! Encoding -/

/-- Decoding the bytes of any well-formed instruction, with any bytes after them, gives the instruction back, and
those bytes (R77, R101, R118). -/
def Obligations.DecodeGivesBackWhatWasEncoded : Prop :=
  ∀ (i : Instr) (rest : List Byte), i.wellFormed = true → decode (encodeBytes i ++ rest) = .ok (i, rest)

/-- Whatever decodes is well formed, and the decoder consumes four bytes for `lpre` and two for every other
instruction (R49, R100). -/
def Obligations.DecodedInstructionsAreWellFormed : Prop :=
  ∀ (bs : List Byte) (i : Instr) (rest : List Byte), decode bs = .ok (i, rest) →
    i.wellFormed = true ∧ ∃ used, bs = used ++ rest ∧ used.length = if i matches .lpre _ then 4 else 2

/-- A first halfword that does not begin an `lpre` is rejected exactly where R121 to R126 reserve it. That no other one
is rejected, one with a nonzero unused field included, is the spec's own decision D5 (R119, log 20); that a reserved one
is rejected at all is its decision D6 (R120, log 14). -/
def Obligations.ReservedHalfwordsAreExactlyThose : Prop :=
  ∀ h : Halfword, isLpre h = false →
    ((∃ e, decodeHalf h = .error e) ↔
      (0x1800#16 ≤ h ∧ h ≤ 0x1FFF#16) ∨
      h &&& 0xEE00#16 = 0x4E00#16 ∨
      h &&& 0xFF00#16 = 0x9F00#16 ∨
      0xE800#16 ≤ h ∨
      h &&& 0xFB00#16 = 0xE300#16 ∨
      (h &&& 0xFF00#16 = 0x8400#16 ∧ 8 ≤ (h.extractLsb' 4 4).toNat) ∨
      (h &&& 0xFF00#16 = 0x8500#16 ∧ 8 ≤ (h.extractLsb' 0 4).toNat) ∨
      (h &&& 0xFF00#16 = 0x8600#16 ∧ (8 ≤ (h.extractLsb' 4 4).toNat ∨ 8 ≤ (h.extractLsb' 0 4).toNat)) ∨
      (h &&& 0xFE00#16 = 0x8C00#16 ∧ 8 ≤ (h.extractLsb' 0 4).toNat))

/-- The bits that R119 calls unused (and the `f` bit of `cmp`, R106) select nothing. That they are ignored is the
spec's own decision D5 (log 20). -/
def Obligations.UnusedFieldsAreIgnored : Prop :=
  ∀ (a b : BitVec 4) (f : BitVec 1) (imm : BitVec 5),
    decodeHalf (0b001#3 ++ imm ++ 0xF#4 ++ a) = .ok (.swiImm imm) ∧
    decodeHalf (0b010#3 ++ f ++ 0x4#4 ++ b ++ a) = .ok (.cmp (Reg.ofField a) (Reg.ofField b)) ∧
    decodeHalf (0b100#3 ++ 0x00#5 ++ b ++ a) = .ok (.jl (Reg.ofField a)) ∧
    decodeHalf (0b100#3 ++ 0x01#5 ++ b ++ a) = .ok (.jmp (Reg.ofField a)) ∧
    decodeHalf (0b100#3 ++ 0x02#5 ++ b ++ a) = .ok .jmpIra ∧
    decodeHalf (0b100#3 ++ 0x03#5 ++ b ++ a) = .ok .reti ∧
    decodeHalf (0b100#3 ++ 0x07#5 ++ b ++ a) = .ok (.index (Reg.ofField a)) ∧
    decodeHalf (0b100#3 ++ 0x08#5 ++ b ++ a) = .ok .ei ∧
    decodeHalf (0b100#3 ++ 0x09#5 ++ b ++ a) = .ok .di

/-- One word or more of each group, written out from the spec's examples, decodes to the instruction the example names.
Which number a register field holds is the spec's own decision D1 (R31, log 17), on which `0x8AF1` as `push r1, sp` rests
outright (N8); that the halfword of `lpre` at the lower address holds bits 31:16 is its decision D3 (R104, log 19). -/
def Obligations.ExampleWordsDecode : Prop :=
  decode [0x01#8, 0x23#8] = .ok (.pre 0x123#12, []) ∧
  decode [0x10#8, 0x91#8, 0xA2#8, 0xB3#8] = .ok (.lpre 0x091A2B3#27, []) ∧
  decode [0x3F#8, 0x01#8] = .ok (.addImm .r1 0x1F#5, []) ∧
  decode [0x50#8, 0x21#8] = .ok (.addF .r1 .r2, []) ∧
  decode [0x7F#8, 0x83#8] = .ok (.bne 0x1F8#9, []) ∧
  decode [0x8A#8, 0xF1#8] = .ok (.push .r1 .sp, []) ∧
  decode [0x95#8, 0x21#8] = .ok (.ludiv .r1 .r2, []) ∧
  decode [0xBC#8, 0x21#8] = .ok (.ldr .r1 .r2 0x1C#5, []) ∧
  decode [0xC4#8, 0x21#8] = .ok (.str .r1 .r2 0x04#5, []) ∧
  decode [0xE6#8, 0x21#8] = .ok (.asrh .r1 .r2, [])

/-! Registers and memory -/

/-- A general register reads as it was last written, whichever of the sixteen it is, and no other changes: none is
hard-wired (R32). -/
def Obligations.GeneralRegistersReadAsWritten : Prop :=
  ∀ (s : State) (i j : Reg) (v : Word), (s.setReg i v).reg j = if j = i then v else s.reg j

/-- What a read and a write of each special-purpose register do (R47, R48): the narrow registers read zero-extended
and keep their low bits, as the spec's own decision D12 says (log 22). -/
def Obligations.SpecialRegistersReadAndWrite : Prop :=
  ∀ (s : State) (v : Word),
    (s.readS .flags).toNat = s.flags.z.toNat + 2 * s.flags.c.toNat + 4 * s.flags.v.toNat + 8 * s.flags.n.toNat ∧
    (s.readS .ie).toNat = s.ie.toNat ∧ (s.readS .ity).toNat = s.ity.toNat ∧
    s.readS .hi = s.hi ∧ s.readS .lo = s.lo ∧ s.readS .ids = s.ids ∧ s.readS .ira = s.ira ∧ s.readS .sty = s.sty ∧
    s.writeS .flags v =
      { s with flags := { z := v.getLsbD 0, c := v.getLsbD 1, v := v.getLsbD 2, n := v.getLsbD 3 } } ∧
    s.writeS .ie v = { s with ie := v.getLsbD 0 } ∧ s.writeS .ity v = { s with ity := v.getLsbD 0 } ∧
    s.writeS .hi v = { s with hi := v } ∧ s.writeS .lo v = { s with lo := v } ∧
    s.writeS .ids v = { s with ids := v } ∧ s.writeS .ira v = { s with ira := v } ∧
    s.writeS .sty v = { s with sty := v }

/-- A 16-bit and a 32-bit read are made of the bytes at their addresses, the most significant one at the lowest
(R73, R74). -/
def Obligations.WideReadsAreBigEndian : Prop :=
  ∀ (s : State) (a : Word) (b0 b1 b2 b3 : Byte), s.readByte a = .ok b0 → s.readByte (a + 1#32) = .ok b1 →
    (a.toNat % 2 = 0 → ∃ h, s.readHalf a = .ok h ∧ h.toNat = b0.toNat * 2 ^ 8 + b1.toNat) ∧
    (a.toNat % 4 = 0 → s.readByte (a + 2#32) = .ok b2 → s.readByte (a + 3#32) = .ok b3 →
      ∃ w, s.readWord a = .ok w ∧
        w.toNat = b0.toNat * 2 ^ 24 + b1.toNat * 2 ^ 16 + b2.toNat * 2 ^ 8 + b3.toNat)

/-- An aligned, backed word store succeeds; afterwards every narrower read of its bytes sees its part (R76), and every
byte outside the four reads as before. -/
def Obligations.StoredWordReadsBackAtEveryWidth : Prop :=
  ∀ (s : State) (a v : Word), a.toNat % 4 = 0 → s.backedAll a 4 = true →
    ∃ t, s.writeWord a v = .ok t ∧ t = { s with mem := t.mem } ∧
      t.readWord a = .ok v ∧
      t.readHalf a = .ok (v.extractLsb' 16 16) ∧ t.readHalf (a + 2#32) = .ok (v.extractLsb' 0 16) ∧
      t.readByte a = .ok (v.extractLsb' 24 8) ∧ t.readByte (a + 1#32) = .ok (v.extractLsb' 16 8) ∧
      t.readByte (a + 2#32) = .ok (v.extractLsb' 8 8) ∧ t.readByte (a + 3#32) = .ok (v.extractLsb' 0 8) ∧
      ∀ b, outside a 4 b → t.readByte b = s.readByte b

/-! The step -/

/-- Where no IRQ is taken and the bytes at an even `pc` decode, the step is the instruction's meaning, and then the
interrupt-request input is sampled for the next boundary (R17, R78; the input is the model's, log 5). -/
def Obligations.StepRunsTheDecodedInstruction : Prop :=
  ∀ (s : State) (i : Instr) (b0 b1 : Byte), s.irqAccepted = false → s.pc.toNat % 2 = 0 →
    s.readByte s.pc = .ok b0 → s.readByte (s.pc + 1#32) = .ok b1 →
    let runs : Prop := step s =
      match exec i s with
      | .next t => .next (atNextBoundary t)
      | .fault f => .fault f
      | .refused r => .refused r
    (isLpre (b0 ++ b1) = false → decode [b0, b1] = .ok (i, []) → runs) ∧
    (∀ b2 b3 : Byte, isLpre (b0 ++ b1) = true → s.readByte (s.pc + 2#32) = .ok b2 →
      s.readByte (s.pc + 3#32) = .ok b3 → decode [b0, b1, b2, b3] = .ok (i, []) → runs)

/-- An IRQ is taken at a boundary exactly where the three conditions of R347 hold, and its entry is that of R348, all
of it; elsewhere the step fetches and executes. That entry clears `ie`, and that `ira` is the address of the next
instruction, is the spec's own decision D16 (log 25). -/
def Obligations.IrqIsTakenExactlyWhenItQualifies : Prop :=
  ∀ s : State,
    if s.irqPending = true ∧ s.ie = true ∧ s.preHave = false ∧ s.lpreHave = false ∧ s.indexHave = false then
      step s = .next (atNextBoundary { s with ira := s.pc, ity := false, ie := false, pc := s.ids })
    else step s = attempt s.fetchInstr fun i => sampled (exec i s)

/-- Where no IRQ is taken: an odd `pc` stops the step at its fetch, whatever lies there (R78), and an even `pc` whose
halfword the memory map does not back stops it as refused (R72). That they stop is the spec's own decisions D7 and D23
(logs 3, 15). -/
def Obligations.FetchStopsAtOddOrUnbackedAddresses : Prop :=
  ∀ s : State, s.irqAccepted = false →
    (s.pc.toNat % 2 = 1 → step s = .fault .misalignedFetch) ∧
    (s.pc.toNat % 2 = 0 → s.backedAll s.pc 2 = false → step s = .fault .accessRefused)

/-- A reserved halfword at an even `pc` stops the step by that name (R120); that it stops is the spec's own decision
D6 (log 14). -/
def Obligations.ReservedHalfwordStopsTheStep : Prop :=
  ∀ (s : State) (b0 b1 : Byte) (e : DecodeError), s.irqAccepted = false → s.pc.toNat % 2 = 0 →
    s.readByte s.pc = .ok b0 → s.readByte (s.pc + 1#32) = .ok b1 → isLpre (b0 ++ b1) = false →
    decodeHalf (b0 ++ b1) = .error e → step s = .fault .reservedInstruction

/-- An instruction word that the launch places at an even `pc`, in backed memory, is the next thing that runs, and
nothing but memory and a pending IRQ that would be taken first is changed to place it (R88, R90; log 13). -/
def Obligations.PlacedWordIsWhatRuns : Prop :=
  ∀ (s : State) (nbits w : Nat) (i : Instr), s.pc.toNat % 2 = 0 → s.backedAll s.pc 4 = true →
    decodeTableWord nbits w = some i →
    let p := s.withFetchWord nbits w
    step p = sampled (exec i p) ∧ p = { s with mem := p.mem, irqPending := p.irqPending } ∧
      (s.irqAccepted = false → p.irqPending = s.irqPending) ∧
      ∀ b, outside s.pc 4 b → p.readByte b = s.readByte b

/-! Reset -/

/-- What the spec gives of the state after reset (R60, R381). That `ie` is 0 is the source's; that no prefix is in effect
is the spec's own decision D20 (log 1). The other registers' values are the model's choice (log 1) and are not stated
here. -/
def Obligations.ResetDisablesIrqsAndPrefixes : Prop :=
  State.reset.ie = false ∧ State.reset.preHave = false ∧ State.reset.lpreHave = false ∧
    State.reset.indexHave = false ∧ State.reset.readS .ie = 0#32

/-- While `ie` is 0 every step is a fetch and, where the fetch succeeds, the instruction fetched, whatever the
interrupt-request input does; an odd `pc` stops it (R347, R383). So is the first step after reset, for every RESET_PC,
memory, register file, parameter and environment. That `ie` is 0 after reset is the source's (R60); that an odd `pc`
stops the fetch is the spec's own decision D7 (log 15). -/
def Obligations.FirstStepAfterResetIsAFetch : Prop :=
  let fetches (s : State) : Prop :=
    (step s = attempt s.fetchInstr fun i => sampled (exec i s)) ∧
      (s.pc.toNat % 2 = 1 → step s = .fault .misalignedFetch)
  (∀ s : State, s.ie = false → fetches s) ∧
  ∀ (resetPc : Word) (regs : Regs) (mem : Memory) (params : Config.Params) (line : Bool) (source : List Bool),
    fetches { State.reset with
      pc := resetPc, regs := regs, mem := mem, params := params, irqPending := line, irqSource := source }

/-! Invariants and rules of the whole machine -/

/-- The state after reset meets the invariant. -/
def Obligations.ResetMeetsTheInvariant : Prop := State.reset.Inv

/-- Every step keeps the invariant: memory stays in its canonical form, holds bytes only where the map backs them, and
`pre` and `lpre` are never both in effect (R150, R72; the form of memory is the model's). -/
def Obligations.EveryStepKeepsTheInvariant : Prop :=
  ∀ s t : State, s.Inv → step s = .next t → t.Inv

/-- Prefixes cannot hold IRQs off for long: of three consecutive boundaries at least one has no prefix in effect, from
every state (R350). -/
def Obligations.PrefixesBlockAtMostTwoBoundaries : Prop :=
  ∀ s t u : State, step s = .next t → step t = .next u →
    ¬(s.prefixed = true ∧ t.prefixed = true ∧ u.prefixed = true)

/-- Every instruction that does not transfer control moves `pc` on by its length (R38). That `pc` counts from the
instruction's own halfword, and that an `lpre` which acts as a NOP is still four bytes long, are the spec's own decisions
D2 and D25 (log 18). -/
def Obligations.SequentialInstructionsAdvancePc : Prop :=
  ∀ (i : Instr) (s t : State), exec i s = .next t → i.transfersControl = false →
    t.pc = s.pc + if i matches .lpre _ then 4#32 else 2#32

/-- No instruction changes a general register but those its rule names as written (R32, R33). -/
def Obligations.GeneralRegistersChangeOnlyAsNamed : Prop :=
  ∀ (i : Instr) (s t : State), exec i s = .next t → ∀ q, q ∉ i.generalWritten → t.reg q = s.reg q

/-- No instruction changes a special-purpose register, `flags` among them, but those its rule names as written (R43,
R46, R345). -/
def Obligations.SpecialRegistersChangeOnlyAsNamed : Prop :=
  ∀ (i : Instr) (s t : State), exec i s = .next t → ∀ k, k ∉ i.specialWritten → t.readS k = s.readS k

/-- No instruction changes a byte of memory but those it stores: the bytes at the address its own meaning computes, and
none at all for an instruction that is no store and no push (R71, R81). -/
def Obligations.MemoryChangesOnlyWhereStored : Prop :=
  ∀ (i : Instr) (s t : State), exec i s = .next t → ∀ b, notStored s i b → t.readByte b = s.readByte b

/-- No instruction changes the model's own fields `irqSource` and `params`, or the input `irqPending`, and no step changes
`params`. That the input's schedule and the parameters stand in the state is the model's choice (logs 5, 12); that the
core never changes the input is the spec's own decision D18 (log 5), and that the parameters are no state a program can
change is its R61. -/
def Obligations.InputAndParametersAreNotTheCores : Prop :=
  (∀ (i : Instr) (s t : State), exec i s = .next t →
    t.irqPending = s.irqPending ∧ t.irqSource = s.irqSource ∧ t.params = s.params) ∧
  ∀ s t : State, step s = .next t → t.params = s.params

/-! Prefixes and immediates -/

/-- The prefix state machine, row by row (R146), with everything else that `pre`, `lpre` and `index` leave alone; and
every other instruction, once it goes on, leaves no prefix in effect. `pc` moves on as R38, R142, R143 and R258 say; that
it does so by four bytes for an `lpre` which acts as a NOP is the spec's own decision D25 (log 18). -/
def Obligations.PrefixStateMachine : Prop :=
  ∀ s : State,
    (∀ imm, exec (.pre imm) s = .next
      (if s.preHave = true ∨ s.lpreHave = true then
        { s with preHave := false, lpreHave := false, indexHave := false, pc := s.pc + 2#32 }
      else { s with preHave := true, preImm := imm, pc := s.pc + 2#32 })) ∧
    (∀ imm, exec (.lpre imm) s = .next
      (if s.preHave = true ∨ s.lpreHave = true then
        { s with preHave := false, lpreHave := false, indexHave := false, pc := s.pc + 4#32 }
      else { s with lpreHave := true, lpreImm := imm, pc := s.pc + 4#32 })) ∧
    (∀ rA, exec (.index rA) s = .next
      (if s.indexHave = true then
        { s with preHave := false, lpreHave := false, indexHave := false, pc := s.pc + 2#32 }
      else { s with indexHave := true, indexReg := s.reg rA, pc := s.pc + 2#32 })) ∧
    ∀ (i : Instr) (t : State), i.isPrefix = false → exec i s = .next t →
      t.preHave = false ∧ t.lpreHave = false ∧ t.indexHave = false

/-- The immediate of an instruction that is no branch: 5 bits sign-extended alone, 17 after `pre`, 32 after `lpre`
(R112, R113, R114). -/
def Obligations.ImmediatesAreWidenedByPrefixes : Prop :=
  ∀ (s : State) (imm : BitVec 5),
    (s.preHave = false → s.lpreHave = false →
      (s.imm5 imm).toInt = imm.toInt ∧ -16 ≤ (s.imm5 imm).toInt ∧ (s.imm5 imm).toInt ≤ 15) ∧
    (s.preHave = true → s.lpreHave = false →
      (s.imm5 imm).toInt =
        (s.preImm.toNat * 2 ^ 5 + imm.toNat : Int) - (if 2 ^ 11 ≤ s.preImm.toNat then 2 ^ 17 else 0) ∧
      -65536 ≤ (s.imm5 imm).toInt ∧ (s.imm5 imm).toInt ≤ 65535) ∧
    (s.preHave = false → s.lpreHave = true → (s.imm5 imm).toNat = s.lpreImm.toNat * 2 ^ 5 + imm.toNat)

/-- The offset of a branch: 9 bits sign-extended alone, 21 after `pre`, 32 after `lpre`, of whose 27 bits 23 are used
(R115): the low 23 where `LPRE_BRANCH_BITS` has its default 0, which is the spec's own decision D4; else those from
that bit on (log 10). -/
def Obligations.BranchOffsetsAreWidenedByPrefixes : Prop :=
  ∀ (s : State) (imm : BitVec 9),
    (s.preHave = false → s.lpreHave = false → (s.imm9 imm).toInt = imm.toInt) ∧
    (s.preHave = true → s.lpreHave = false →
      (s.imm9 imm).toInt =
        (s.preImm.toNat * 2 ^ 9 + imm.toNat : Int) - (if 2 ^ 11 ≤ s.preImm.toNat then 2 ^ 21 else 0)) ∧
    (s.preHave = false → s.lpreHave = true →
      (s.imm9 imm).toNat = s.lpreImm.toNat / 2 ^ s.params.lpreBranchLow.val % 2 ^ 23 * 2 ^ 9 + imm.toNat)

/-! Group 1 -/

/-- The additions, the copy and the logic of group 1: each runs in every state, writes its result and nothing else,
and has the encoding its rule prints (R162 to R165, R167, R171 to R173). -/
def Obligations.ImmediateArithmeticAndLogic : Prop :=
  ∀ (s : State) (rA : Reg) (imm : BitVec 5),
    ∀ p ∈ ([(0x0#4, .addImm, s.reg rA + s.imm5 imm), (0x1#4, .addPcImm, s.pc + s.imm5 imm + 2#32),
        (0x2#4, .addSpImm, s.reg .sp + s.imm5 imm), (0x3#4, .addFpImm, s.reg .fp + s.imm5 imm),
        (0x5#4, .cpyImm, s.imm5 imm), (0x9#4, .andImm, s.reg rA &&& s.imm5 imm),
        (0xA#4, .orrImm, s.reg rA ||| s.imm5 imm), (0xB#4, .xorImm, s.reg rA ^^^ s.imm5 imm)] :
        List (BitVec 4 × (Reg → BitVec 5 → Instr) × Word)),
      encode (p.2.1 rA imm) = [0b001#3 ++ imm ++ p.1 ++ rA.field] ∧
      exec (p.2.1 rA imm) s = .next (completed { s with regs := s.regs.write rA p.2.2 })

/-- The shifts of group 1, by the whole unsigned amount (R168 to R170, R179): a multiplication or a division rounded
down, exactly, at every amount where `SHIFT_GE32` has its default; the amount modulo 32 where it has the other value
(decision D10, log 8). -/
def Obligations.ShiftsByImmediate : Prop :=
  ∀ (s : State) (rA : Reg) (imm : BitVec 5),
    let x := s.reg rA
    let m := match s.params.shiftGe32 with
      | .mathematical => (s.imm5 imm).toNat
      | .modulo => (s.imm5 imm).toNat % 32
    (∃ r : Word, exec (.lslImm rA imm) s = .next (completed { s with regs := s.regs.write rA r }) ∧
      r.toNat = x.toNat * 2 ^ m % 2 ^ 32) ∧
    (∃ r : Word, exec (.lsrImm rA imm) s = .next (completed { s with regs := s.regs.write rA r }) ∧
      r.toNat = x.toNat / 2 ^ m) ∧
    (∃ r : Word, exec (.asrImm rA imm) s = .next (completed { s with regs := s.regs.write rA r }) ∧
      r.toInt = x.toInt / 2 ^ m)

/-- `ze` clears the bits from its position up and `se` copies the bit at its position into those above it (R174, R175);
a position outside 0 to 31 leaves the register as it is where `ZE_SE_RANGE` has its default, and counts modulo 32 where
it has the other value (R180, decision D11, log 9). -/
def Obligations.ZeroAndSignExtensionFromAPosition : Prop :=
  ∀ (s : State) (rA : Reg) (imm : BitVec 5),
    let n := (s.imm5 imm).toNat
    let p := n % 32
    (n ≤ 31 ∨ s.params.zeSeRange = .lowFive →
      (∃ r : Word, exec (.zeImm rA imm) s = .next (completed { s with regs := s.regs.write rA r }) ∧
        ∀ k, r.getLsbD k = (decide (k < p) && (s.reg rA).getLsbD k)) ∧
      (∃ r : Word, exec (.seImm rA imm) s = .next (completed { s with regs := s.regs.write rA r }) ∧
        ∀ k, k < 32 → r.getLsbD k = (s.reg rA).getLsbD (min k p))) ∧
    (32 ≤ n → s.params.zeSeRange = .unchanged →
      exec (.zeImm rA imm) s = .next (completed s) ∧ exec (.seImm rA imm) s = .next (completed s))

/-- `cmp` with an immediate and with a register: Z says equal, C unsigned greater or equal, V that the signed
difference does not fit, N the difference's sign bit; nothing but `flags` is written (R166, R199). `cmp` is the same
whatever its `f` bit, which the encoder writes as 0, as the spec's table does (R130). What C and V are is the spec's own
decision D9 (log 21). -/
def Obligations.WideComparesSetTheFlags : Prop :=
  ∀ (s : State) (rA rB : Reg) (imm : BitVec 5),
    encode (.cmpImm rA imm) = [0b001#3 ++ imm ++ 0x4#4 ++ rA.field] ∧
    encode (.cmp rA rB) = [0b010#3 ++ 0#1 ++ 0x4#4 ++ rB.field ++ rA.field] ∧
    (∀ f : BitVec 1, decodeHalf (0b010#3 ++ f ++ 0x4#4 ++ rB.field ++ rA.field) = .ok (.cmp rA rB)) ∧
    ∀ p ∈ ([(.cmpImm rA imm, s.imm5 imm), (.cmp rA rB, s.reg rB)] : List (Instr × Word)),
      ∃ f : Flags, exec p.1 s = .next (completed { s with flags := f }) ∧
        f.z = decide (s.reg rA = p.2) ∧ f.c = decide (p.2.toNat ≤ (s.reg rA).toNat) ∧
        f.v = decide ((s.reg rA).toInt - p.2.toInt < -2 ^ 31 ∨ 2 ^ 31 ≤ (s.reg rA).toInt - p.2.toInt) ∧
        f.n = (s.reg rA - p.2).msb ∧
        ((f.n ^^ f.v) = decide ((s.reg rA).toInt < p.2.toInt))

/-- `swi` takes the software interrupt in every state, whatever `ie` holds: the argument to `sty`, `ity` 1, the return
address to `ira`, `pc` from `ids`, and no prefix in effect; nothing else changes (R342, R176, R177). What `ira` and
`ie` become is the spec's own decision D17 (logs 11, 26). -/
def Obligations.SwiTakesTheSoftwareInterrupt : Prop :=
  ∀ (s : State) (rA : Reg) (imm : BitVec 5),
    let enter (arg : Word) : State :=
      { s with sty := arg, ity := true, ira := s.pc + 2#32, ie := (if s.params.swiClearsIe then false else s.ie),
               pc := s.ids, preHave := false, lpreHave := false, indexHave := false }
    exec (.swiRegImm rA imm) s = .next (enter (s.reg rA + s.imm5 imm)) ∧
      exec (.swiImm imm) s = .next (enter (s.imm5 imm))

/-! Group 2 -/

/-- The additions of group 2, plain and `.f`: the sum modulo 2^32 and, in the `.f` form, Z, C, V and N of the exact sum
(R195, R197, R198, R208). What C and V are after an addition is the spec's own decision D9 (log 21). -/
def Obligations.AdditionForms : Prop :=
  ∀ (s : State) (rA rB : Reg),
    ∀ p ∈ ([(0x0#4, .add, .addF, s.reg rA, false), (0x2#4, .addSp, .addSpF, s.reg .sp, false),
        (0x3#4, .addFp, .addFpF, s.reg .fp, false), (0xC#4, .adc, .adcF, s.reg rA, s.flags.c)] :
        List (BitVec 4 × (Reg → Reg → Instr) × (Reg → Reg → Instr) × Word × Bool)),
      let a := p.2.2.2.1
      let b := s.reg rB
      let t := a.toNat + b.toNat + p.2.2.2.2.toNat
      let e := a.toInt + b.toInt + (p.2.2.2.2.toNat : Int)
      let f : Flags :=
        { z := decide (t % 2 ^ 32 = 0), c := decide (2 ^ 32 ≤ t), v := decide (e < -2 ^ 31 ∨ 2 ^ 31 ≤ e),
          n := decide (2 ^ 31 ≤ t % 2 ^ 32) }
      let g := s.regs.write rA (BitVec.ofNat 32 t)
      encode (p.2.1 rA rB) = [0b010#3 ++ 0#1 ++ p.1 ++ rB.field ++ rA.field] ∧
      encode (p.2.2.1 rA rB) = [0b010#3 ++ 1#1 ++ p.1 ++ rB.field ++ rA.field] ∧
      exec (p.2.1 rA rB) s = .next (completed { s with regs := g }) ∧
      exec (p.2.2.1 rA rB) s = .next (completed { s with regs := g, flags := f })

/-- The subtractions of group 2, plain and `.f`: the difference modulo 2^32, C = 1 where there is no borrow, V where
the signed difference does not fit; `sbc` borrows the complement of C (R196, R209; decision D9, log 21). -/
def Obligations.SubtractionForms : Prop :=
  ∀ (s : State) (rA rB : Reg),
    ∀ p ∈ ([(0x1#4, .sub, .subF, 0), (0xD#4, .sbc, .sbcF, 1 - s.flags.c.toNat)] :
        List (BitVec 4 × (Reg → Reg → Instr) × (Reg → Reg → Instr) × Nat)),
      let a := s.reg rA
      let b := s.reg rB
      let t : Int := (a.toNat : Int) - b.toNat - p.2.2.2
      let e : Int := a.toInt - b.toInt - p.2.2.2
      let r := BitVec.ofInt 32 t
      let f : Flags :=
        { z := decide (r = 0#32), c := decide (0 ≤ t), v := decide (e < -2 ^ 31 ∨ 2 ^ 31 ≤ e), n := r.msb }
      let g := s.regs.write rA r
      encode (p.2.1 rA rB) = [0b010#3 ++ 0#1 ++ p.1 ++ rB.field ++ rA.field] ∧
      encode (p.2.2.1 rA rB) = [0b010#3 ++ 1#1 ++ p.1 ++ rB.field ++ rA.field] ∧
      exec (p.2.1 rA rB) s = .next (completed { s with regs := g }) ∧
      exec (p.2.2.1 rA rB) s = .next (completed { s with regs := g, flags := f })

/-- The copy and the logic of group 2, plain and `.f`: the `.f` form writes Z and N of the result and leaves C and V
(R200, R204, R205, R206). -/
def Obligations.MoveAndLogicForms : Prop :=
  ∀ (s : State) (rA rB : Reg),
    ∀ p ∈ ([(0x5#4, .cpy, .cpyF, s.reg rB), (0x9#4, .and, .andF, s.reg rA &&& s.reg rB),
        (0xA#4, .orr, .orrF, s.reg rA ||| s.reg rB), (0xB#4, .xor, .xorF, s.reg rA ^^^ s.reg rB)] :
        List (BitVec 4 × (Reg → Reg → Instr) × (Reg → Reg → Instr) × Word)),
      let r := p.2.2.2
      let g := s.regs.write rA r
      encode (p.2.1 rA rB) = [0b010#3 ++ 0#1 ++ p.1 ++ rB.field ++ rA.field] ∧
      encode (p.2.2.1 rA rB) = [0b010#3 ++ 1#1 ++ p.1 ++ rB.field ++ rA.field] ∧
      exec (p.2.1 rA rB) s = .next (completed { s with regs := g }) ∧
      exec (p.2.2.1 rA rB) s =
        .next (completed { s with regs := g, flags := { s.flags with z := decide (r = 0#32), n := r.getLsbD 31 } })

/-- The shifts of group 2, plain and `.f`, by the whole register `rB` (R201 to R203, R194), as `ShiftsByImmediate`; the
`.f` form writes Z and N and leaves C and V (decision D10, log 8). -/
def Obligations.ShiftsByRegister : Prop :=
  ∀ (s : State) (rA rB : Reg),
    let x := s.reg rA
    let m := match s.params.shiftGe32 with
      | .mathematical => (s.reg rB).toNat
      | .modulo => (s.reg rB).toNat % 32
    ∀ p ∈ ([(.lsl, .lslF, fun r => r.toNat = x.toNat * 2 ^ m % 2 ^ 32), (.lsr, .lsrF, fun r => r.toNat = x.toNat / 2 ^ m),
        (.asr, .asrF, fun r => r.toInt = x.toInt / 2 ^ m)] :
        List ((Reg → Reg → Instr) × (Reg → Reg → Instr) × (Word → Prop))),
      ∃ r : Word, p.2.2 r ∧
        exec (p.1 rA rB) s = .next (completed { s with regs := s.regs.write rA r }) ∧
        exec (p.2.1 rA rB) s = .next (completed
          { s with regs := s.regs.write rA r, flags := { s.flags with z := decide (r = 0#32), n := r.getLsbD 31 } })

/-- Multiword arithmetic (R210): the low words by the `.f` form and then the high words by `adc` or `sbc` add and
subtract 64-bit numbers modulo 2^64. -/
def Obligations.MultiwordAdditionAndSubtraction : Prop :=
  ∀ (s : State) (aLo aHi bLo bHi : Reg), aHi ≠ aLo → bHi ≠ aLo →
    let a : DWord := s.reg aHi ++ s.reg aLo
    let b : DWord := s.reg bHi ++ s.reg bLo
    (∃ t u, exec (.addF aLo bLo) s = .next t ∧ exec (.adc aHi bHi) t = .next u ∧
      (u.reg aHi ++ u.reg aLo : DWord) = a + b) ∧
    (∃ t u, exec (.subF aLo bLo) s = .next t ∧ exec (.sbc aHi bHi) t = .next u ∧
      (u.reg aHi ++ u.reg aLo : DWord) = a - b)

/-! Group 3 -/

/-- The branches on one flag: to `pc + imm + 2` where the flag is as the mnemonic says, else on; nothing else changes
but the prefix state (R226 to R233, R222). -/
def Obligations.BranchesOnOneFlag : Prop :=
  ∀ (s : State) (imm : BitVec 9),
    ∀ p ∈ ([(0x2#4, .beq, s.flags.z), (0x3#4, .bne, !s.flags.z), (0x4#4, .bmi, s.flags.n), (0x5#4, .bpl, !s.flags.n),
        (0x6#4, .bvs, s.flags.v), (0x7#4, .bvc, !s.flags.v), (0x8#4, .bgeu, s.flags.c), (0x9#4, .bltu, !s.flags.c)] :
        List (BitVec 4 × (BitVec 9 → Instr) × Bool)),
      encode (p.2.1 imm) = [0b011#3 ++ imm ++ p.1] ∧
      exec (p.2.1 imm) s =
        .next (if p.2.2 then transferred s (s.pc + s.imm9 imm + 2#32) else completed s)

/-- The branches on two or three flags (R234 to R239, R222). -/
def Obligations.BranchesOnSeveralFlags : Prop :=
  ∀ (s : State) (imm : BitVec 9),
    ∀ p ∈ ([(0xA#4, .bgtu, s.flags.c && !s.flags.z), (0xB#4, .bleu, !s.flags.c || s.flags.z),
        (0xC#4, .bges, !(s.flags.n ^^ s.flags.v)), (0xD#4, .blts, s.flags.n ^^ s.flags.v),
        (0xE#4, .bgts, !(s.flags.n ^^ s.flags.v) && !s.flags.z), (0xF#4, .bles, (s.flags.n ^^ s.flags.v) || s.flags.z)] :
        List (BitVec 4 × (BitVec 9 → Instr) × Bool)),
      encode (p.2.1 imm) = [0b011#3 ++ imm ++ p.1] ∧
      exec (p.2.1 imm) s =
        .next (if p.2.2 then transferred s (s.pc + s.imm9 imm + 2#32) else completed s)

/-- `bl` and `bra` are always taken; `bl` leaves the address after itself in `lr` (R224, R225). -/
def Obligations.BranchAlwaysAndBranchAndLink : Prop :=
  ∀ (s : State) (imm : BitVec 9),
    encode (.bl imm) = [0b011#3 ++ imm ++ 0x0#4] ∧ encode (.bra imm) = [0b011#3 ++ imm ++ 0x1#4] ∧
    exec (.bl imm) s =
      .next (transferred { s with regs := s.regs.write .lr (s.pc + 2#32) } (s.pc + s.imm9 imm + 2#32)) ∧
    exec (.bra imm) s = .next (transferred s (s.pc + s.imm9 imm + 2#32))

/-- After any compare, of words, halfwords or bytes, and after `sub.f`, each conditional branch that names a relation
is taken exactly where its two operands, as numbers, stand in that relation (R240). It rests on the spec's own decisions
D9, how the flags are computed, and D15, the width of the narrow compares (logs 21, 24). -/
def Obligations.BranchAfterCompareMeansTheComparison : Prop :=
  ∀ (s : State) (rA rB : Reg) (imm : BitVec 5) (off : BitVec 9),
    let a := s.reg rA
    let b := s.reg rB
    let a8 := a.extractLsb' 0 8
    let b8 := b.extractLsb' 0 8
    let a16 := a.extractLsb' 0 16
    let b16 := b.extractLsb' 0 16
    let n := s.imm5 imm
    ∀ c ∈ ([(.cmp rA rB, a.toNat, b.toNat, a.toInt, b.toInt), (.subF rA rB, a.toNat, b.toNat, a.toInt, b.toInt),
        (.cmpImm rA imm, a.toNat, n.toNat, a.toInt, n.toInt),
        (.cmpb rA rB, a8.toNat, b8.toNat, a8.toInt, b8.toInt),
        (.cmph rA rB, a16.toNat, b16.toNat, a16.toInt, b16.toInt)] : List (Instr × Nat × Nat × Int × Int)),
    ∀ r ∈ ([(.beq, fun ua ub _ _ => decide (ua = ub)), (.bne, fun ua ub _ _ => decide (ua ≠ ub)),
        (.bgeu, fun ua ub _ _ => decide (ub ≤ ua)), (.bltu, fun ua ub _ _ => decide (ua < ub)),
        (.bgtu, fun ua ub _ _ => decide (ub < ua)), (.bleu, fun ua ub _ _ => decide (ua ≤ ub)),
        (.bges, fun _ _ sa sb => decide (sb ≤ sa)), (.blts, fun _ _ sa sb => decide (sa < sb)),
        (.bgts, fun _ _ sa sb => decide (sb < sa)), (.bles, fun _ _ sa sb => decide (sa ≤ sb))] :
        List ((BitVec 9 → Instr) × (Nat → Nat → Int → Int → Bool))),
      ∃ t, exec c.1 s = .next t ∧
        exec (r.1 off) t = .next
          (if r.2 c.2.1 c.2.2.1 c.2.2.2.1 c.2.2.2.2 then transferred t (t.pc + off.signExtend 32 + 2#32)
           else completed t)

/-! Group 4: control -/

/-- The jumps and the interrupt-control instructions, each in every state and with everything it leaves alone (R251 to
R254, R259, R260): `jl` reads its target before it writes `lr`; `reti` sets `ie`, `jmp ira` does not. That the encoder
writes unused fields as 0 is the spec's own decision D5 (R119, log 20). -/
def Obligations.JumpsAndInterruptControl : Prop :=
  ∀ (s : State) (rA : Reg),
    encode (.jl rA) = [0b100#3 ++ 0x00#5 ++ 0#4 ++ rA.field] ∧ encode (.jmp rA) = [0b100#3 ++ 0x01#5 ++ 0#4 ++ rA.field] ∧
    encode .jmpIra = [0x8200#16] ∧ encode .reti = [0x8300#16] ∧ encode .ei = [0x8800#16] ∧ encode .di = [0x8900#16] ∧
    exec (.jl rA) s = .next (transferred { s with regs := s.regs.write .lr (s.pc + 2#32) } (s.reg rA)) ∧
    exec (.jmp rA) s = .next (transferred s (s.reg rA)) ∧
    exec .jmpIra s = .next (transferred s s.ira) ∧
    exec .reti s = .next (transferred { s with ie := true } s.ira) ∧
    exec .ei s = .next (completed { s with ie := true }) ∧
    exec .di s = .next (completed { s with ie := false })

/-- The copies between general and special-purpose registers, for all eight of these (R255, R256, R257);
`SpecialRegistersReadAndWrite` says what the read and the write are. -/
def Obligations.SpecialRegisterCopies : Prop :=
  ∀ (s : State) (rA : Reg) (k j : SReg),
    encode (.cpyFromS rA k.field) = [0b100#3 ++ 0x04#5 ++ k.field ++ rA.field] ∧
    encode (.cpyToS k.field rA) = [0b100#3 ++ 0x05#5 ++ rA.field ++ k.field] ∧
    encode (.cpySS k.field j.field) = [0b100#3 ++ 0x06#5 ++ j.field ++ k.field] ∧
    exec (.cpyFromS rA k.field) s = .next (completed { s with regs := s.regs.write rA (s.readS k) }) ∧
    exec (.cpyToS k.field rA) s = .next (completed (s.writeS k (s.reg rA))) ∧
    exec (.cpySS k.field j.field) s = .next (completed (s.writeS k (s.readS j)))

/-- A return right after an entry resumes where it left off. An IRQ and `reti` leave the state that was interrupted, but
for `ira`, `ity` and the input; `swi` and `jmp ira` go on after the `swi` (R348, R342, R352, R345; what `ira` and `ie`
become is the spec's own decisions D16 and D17, logs 11, 25, 26). -/
def Obligations.ReturnsResumeWhereTheEntryLeftOff : Prop :=
  ∀ (s t : State) (imm : BitVec 5),
    (s.irqAccepted = true → step s = .next t →
      ∃ u, exec .reti t = .next u ∧
        u = { s with ira := s.pc, ity := false, irqPending := u.irqPending, irqSource := u.irqSource }) ∧
    (exec (.swiImm imm) s = .next t →
      exec .jmpIra t = .next (completed
        { s with sty := s.imm5 imm, ity := true, ira := s.pc + 2#32,
                 ie := (if s.params.swiClearsIe then false else s.ie) }))

/-- A special-purpose register field of 0x8 to 0xf stops each of the five instructions that have one, before any effect
(R49); that it stops is the spec's own decision D6 (log 14). -/
def Obligations.ReservedSpecialRegisterFieldStops : Prop :=
  ∀ (s : State) (rA rB : Reg) (k j : SField), 8 ≤ k.toNat →
    ∀ i ∈ ([.cpyFromS rA k, .cpyToS k rB, .cpySS k j, .cpySS j k, .pushS k rB, .popS k rB] : List Instr),
      exec i s = .fault .reservedInstruction

/-- A push of a general or special-purpose register stores its 32 bits at the address in `rB`, subtracts 4 from `rB`
and changes nothing else, no byte outside the four; a general push of `rB` through itself does nothing (R263, R265).
The alignment is the spec's own decision D8 (log 16). -/
def Obligations.PushStoresThenDecrements : Prop :=
  ∀ (s : State) (rA rB : Reg) (k : SReg),
    let sp := s.reg rB
    let pushes (i : Instr) (v : Word) : Prop :=
      ∃ t, exec i s = .next t ∧ t.readWord sp = .ok v ∧ (∀ b, outside sp 4 b → t.readByte b = s.readByte b) ∧
        t = completed { s with regs := s.regs.write rB (sp - 4#32), mem := t.mem }
    (sp.toNat % 4 = 0 → s.backedAll sp 4 = true →
      (rA ≠ rB → pushes (.push rA rB) (s.reg rA)) ∧ pushes (.pushS k.field rB) (s.readS k)) ∧
    exec (.push rB rB) s = .next (completed s)

/-- A pop adds 4 to `rB` and loads the word there into a general or special-purpose register, and changes nothing else;
a general pop of `rB` through itself does nothing (R264, R266). -/
def Obligations.PopIncrementsThenLoads : Prop :=
  ∀ (s : State) (rA rB : Reg) (k : SReg),
    let sp := s.reg rB + 4#32
    (∀ v, s.readWord sp = .ok v →
      (rA ≠ rB → exec (.pop rA rB) s = .next (completed { s with regs := (s.regs.write rB sp).write rA v })) ∧
      exec (.popS k.field rB) s = .next (completed ({ s with regs := s.regs.write rB sp }.writeS k v))) ∧
    exec (.pop rB rB) s = .next (completed s)

/-- `pop` undoes `push`: the value comes back and the pointer is restored (R264's corner case), in any two registers
and through any pointer. -/
def Obligations.PopUndoesPush : Prop :=
  ∀ (s : State) (rA rC rB : Reg), rA ≠ rB → rC ≠ rB → (s.reg rB).toNat % 4 = 0 → s.backedAll (s.reg rB) 4 = true →
    ∃ t u, exec (.push rA rB) s = .next t ∧ exec (.pop rC rB) t = .next u ∧
      u.reg rC = s.reg rA ∧ u.reg rB = s.reg rB ∧ ∀ q, q ≠ rC → u.reg q = s.reg q

/-! Group 4: multiply and divide -/

/-- The three multiplications: the low 32 bits, the exact unsigned and the exact signed 64-bit product (R281, R286,
R287); no flag is written. -/
def Obligations.MultiplicationsAreExact : Prop :=
  ∀ (s : State) (rA rB : Reg),
    let x := s.reg rA
    let y := s.reg rB
    encode (.mul rA rB) = [0b100#3 ++ 0x0E#5 ++ rB.field ++ rA.field] ∧
    encode (.lumul rA rB) = [0b100#3 ++ 0x13#5 ++ rB.field ++ rA.field] ∧
    encode (.lsmul rA rB) = [0b100#3 ++ 0x14#5 ++ rB.field ++ rA.field] ∧
    exec (.mul rA rB) s = .next (completed { s with regs := s.regs.write rA (BitVec.ofNat 32 (x.toNat * y.toNat)) }) ∧
    (∃ h l : Word, exec (.lumul rA rB) s = .next (completed { s with hi := h, lo := l }) ∧
      h.toNat * 2 ^ 32 + l.toNat = x.toNat * y.toNat) ∧
    (∃ h l : Word, exec (.lsmul rA rB) s = .next (completed { s with hi := h, lo := l }) ∧
      (h ++ l : DWord).toInt = x.toInt * y.toInt)

/-- Unsigned division and modulo by a divisor that is not zero, of 32 and of 64 bits: quotient and remainder of the one
division (R282, R284, R288, R290, R292). A zero divisor is `DivisionByZeroRuns`. -/
def Obligations.UnsignedDivision : Prop :=
  ∀ (s : State) (rA rB : Reg),
    ((s.reg rB).toNat ≠ 0 →
      ∃ q r : Word, exec (.udiv rA rB) s = .next (completed { s with regs := s.regs.write rA q }) ∧
        exec (.umod rA rB) s = .next (completed { s with regs := s.regs.write rA r }) ∧
        (s.reg rA).toNat = q.toNat * (s.reg rB).toNat + r.toNat ∧ r.toNat < (s.reg rB).toNat) ∧
    (let n := s.hi.toNat * 2 ^ 32 + s.lo.toNat
     let d := (s.reg rA).toNat * 2 ^ 32 + (s.reg rB).toNat
     d ≠ 0 →
      ∃ qh ql rh rl : Word, exec (.ludiv rA rB) s = .next (completed { s with hi := qh, lo := ql }) ∧
        exec (.lumod rA rB) s = .next (completed { s with hi := rh, lo := rl }) ∧
        n = (qh.toNat * 2 ^ 32 + ql.toNat) * d + (rh.toNat * 2 ^ 32 + rl.toNat) ∧
        rh.toNat * 2 ^ 32 + rl.toNat < d)

/-- Signed division and modulo by a divisor that is not zero: rounded toward zero, the remainder with the sign of the
dividend; the most negative value divided by -1 gives itself and remainder 0 (R293, R283, R285, R289, R291). Rounding
and overflow are the spec's own decision D13 (log 23). -/
def Obligations.SignedDivision : Prop :=
  ∀ (s : State) (rA rB : Reg),
    let divides (n d q r lowest : Int) : Prop :=
      if n = lowest ∧ d = -1 then q = lowest ∧ r = 0
      else n = q * d + r ∧ r.natAbs < d.natAbs ∧ (0 ≤ n → 0 ≤ r) ∧ (n ≤ 0 → r ≤ 0)
    ((s.reg rB).toInt ≠ 0 →
      ∃ q r : Word, exec (.sdiv rA rB) s = .next (completed { s with regs := s.regs.write rA q }) ∧
        exec (.smod rA rB) s = .next (completed { s with regs := s.regs.write rA r }) ∧
        divides (s.reg rA).toInt (s.reg rB).toInt q.toInt r.toInt (-2 ^ 31)) ∧
    (let n : DWord := s.hi ++ s.lo
     let d : DWord := s.reg rA ++ s.reg rB
     d.toInt ≠ 0 →
      ∃ qh ql rh rl : Word, exec (.lsdiv rA rB) s = .next (completed { s with hi := qh, lo := ql }) ∧
        exec (.lsmod rA rB) s = .next (completed { s with hi := rh, lo := rl }) ∧
        divides n.toInt d.toInt (qh ++ ql : DWord).toInt (rh ++ rl : DWord).toInt (-2 ^ 63))

/-- A zero divisor stops nothing: each of the eight instructions runs and writes where it always writes, a value of
which nothing is known but that it is the same for the same dividend (R294: "a configuration function of the
operands"; log 6). It holds whatever that function is. -/
def Obligations.DivisionByZeroRuns : Prop :=
  ∀ (s : State) (rA rB : Reg), s.reg rB = 0#32 →
    (∀ p ∈ ([(.udiv, .udiv), (.sdiv, .sdiv), (.umod, .umod), (.smod, .smod)] :
        List ((Reg → Reg → Instr) × Config.DivOp)),
      exec (p.1 rA rB) s = .next (completed { s with regs := s.regs.write rA (Config.div0 p.2 (s.reg rA)) })) ∧
    (s.reg rA = 0#32 →
      ∀ p ∈ ([(.ludiv, .ludiv), (.lsdiv, .lsdiv), (.lumod, .lumod), (.lsmod, .lsmod)] :
          List ((Reg → Reg → Instr) × Config.LongDivOp)),
        let r := Config.div0Long p.2 (s.hi ++ s.lo)
        exec (p.1 rA rB) s = .next (completed { s with hi := r.extractLsb' 32 32, lo := r.extractLsb' 0 32 }))

/-! Loads and stores -/

/-- The 8-bit and 16-bit loads: the value read at `rB + index_val`, extended with zeros or with its sign (R302 to
R305). -/
def Obligations.NarrowLoads : Prop :=
  ∀ (s : State) (rA rB : Reg),
    let ea := s.reg rB + if s.indexHave then s.indexReg else 0#32
    (∀ b, s.readByte ea = .ok b →
      exec (.ldub rA rB) s = .next (completed { s with regs := s.regs.write rA (BitVec.ofNat 32 b.toNat) }) ∧
      exec (.ldsb rA rB) s = .next (completed { s with regs := s.regs.write rA (BitVec.ofInt 32 b.toInt) })) ∧
    (∀ h, s.readHalf ea = .ok h →
      exec (.lduh rA rB) s = .next (completed { s with regs := s.regs.write rA (BitVec.ofNat 32 h.toNat) }) ∧
      exec (.ldsh rA rB) s = .next (completed { s with regs := s.regs.write rA (BitVec.ofInt 32 h.toInt) }))

/-- The 8-bit and 16-bit stores: the low bits of `rA` at `rB + index_val`, and no other byte (R306, R307). -/
def Obligations.NarrowStores : Prop :=
  ∀ (s : State) (rA rB : Reg),
    let ea := s.reg rB + if s.indexHave then s.indexReg else 0#32
    (s.backed ea = true →
      ∃ t, exec (.stb rA rB) s = .next t ∧ t.readByte ea = .ok ((s.reg rA).extractLsb' 0 8) ∧
        (∀ b, b ≠ ea → t.readByte b = s.readByte b) ∧ t = completed { s with mem := t.mem }) ∧
    (ea.toNat % 2 = 0 → s.backedAll ea 2 = true →
      ∃ t, exec (.sth rA rB) s = .next t ∧ t.readByte ea = .ok ((s.reg rA).extractLsb' 8 8) ∧
        t.readByte (ea + 1#32) = .ok ((s.reg rA).extractLsb' 0 8) ∧
        (∀ b, outside ea 2 b → t.readByte b = s.readByte b) ∧ t = completed { s with mem := t.mem })

/-- `ldr` and `str`: the word at `rB + index_val + imm`, loaded, or stored with no other byte changed (R318, R320). -/
def Obligations.WordLoadAndStore : Prop :=
  ∀ (s : State) (rA rB : Reg) (imm : BitVec 5),
    let ea := s.reg rB + (if s.indexHave then s.indexReg else 0#32) + s.imm5 imm
    encode (.ldr rA rB imm) = [0b101#3 ++ imm ++ rB.field ++ rA.field] ∧
    encode (.str rA rB imm) = [0b110#3 ++ imm ++ rB.field ++ rA.field] ∧
    (∀ v, s.readWord ea = .ok v →
      exec (.ldr rA rB imm) s = .next (completed { s with regs := s.regs.write rA v })) ∧
    (ea.toNat % 4 = 0 → s.backedAll ea 4 = true →
      ∃ t, exec (.str rA rB imm) s = .next t ∧ t.readWord ea = .ok (s.reg rA) ∧
        (∀ b, outside ea 4 b → t.readByte b = s.readByte b) ∧ t = completed { s with mem := t.mem })

/-- Where a data access stops: at an address that is no multiple of its width, and, aligned, where the memory map does
not back it; for every instruction that accesses data (R80, R72). Each stop alone is the spec's own decision, D8 and D23
(logs 16, 3). Where an address is both misaligned and not backed, the spec gives both stops and no order between them:
that misalignedAccess is named there is the model's choice (log 16, DESIGN CHOICE). -/
def Obligations.DataAccessStops : Prop :=
  ∀ (s : State) (rA rB rC : Reg) (imm : BitVec 5) (k : SReg), rC ≠ rB →
    ∀ p ∈ ([(.ldub rA rB, s.narrowEa rB, 1), (.ldsb rA rB, s.narrowEa rB, 1), (.stb rA rB, s.narrowEa rB, 1),
        (.lduh rA rB, s.narrowEa rB, 2), (.ldsh rA rB, s.narrowEa rB, 2), (.sth rA rB, s.narrowEa rB, 2),
        (.ldr rA rB imm, s.wordEa rB imm, 4), (.str rA rB imm, s.wordEa rB imm, 4), (.push rC rB, s.reg rB, 4),
        (.pop rC rB, s.reg rB + 4#32, 4), (.pushS k.field rB, s.reg rB, 4), (.popS k.field rB, s.reg rB + 4#32, 4)] :
        List (Instr × Word × Nat)),
      (p.2.1.toNat % p.2.2 ≠ 0 → exec p.1 s = .fault .misalignedAccess) ∧
      (p.2.1.toNat % p.2.2 = 0 → s.backedAll p.2.1 p.2.2 = false → exec p.1 s = .fault .accessRefused)

/-! Group 7 -/

/-- `cmpb` and `cmph`: the flags of the comparison of the low 8 or 16 bits, at that width; the bits above them do not
matter, and nothing but `flags` is written (R328, R329, R334; the width is the spec's own decision D15, log 24). -/
def Obligations.NarrowComparesSetTheFlags : Prop :=
  ∀ (s : State) (rA rB : Reg),
    (let a := (s.reg rA).extractLsb' 0 8
     let b := (s.reg rB).extractLsb' 0 8
     exec (.cmpb rA rB) s = .next (completed { s with flags :=
      { z := decide (a = b), c := decide (b.toNat ≤ a.toNat),
        v := decide (a.toInt - b.toInt < -2 ^ 7 ∨ 2 ^ 7 ≤ a.toInt - b.toInt), n := (a - b).msb } })) ∧
    (let a := (s.reg rA).extractLsb' 0 16
     let b := (s.reg rB).extractLsb' 0 16
     exec (.cmph rA rB) s = .next (completed { s with flags :=
      { z := decide (a = b), c := decide (b.toNat ≤ a.toNat),
        v := decide (a.toInt - b.toInt < -2 ^ 15 ∨ 2 ^ 15 ≤ a.toInt - b.toInt), n := (a - b).msb } }))

/-- The narrow right shifts: the low 8 or 16 bits of `rA` are those of the narrow shift, whatever `NARROW_UPPER` is;
where it has its default, the whole register is that result extended; nothing else changes but the model's count of
draws (R330 to R333, R327; decisions D10 and D15, logs 7, 8, 24). -/
def Obligations.NarrowShifts : Prop :=
  ∀ (s : State) (rA rB : Reg),
    let amount (w : Nat) : Nat := match s.params.shiftGe32 with
      | .mathematical => (s.reg rB).toNat
      | .modulo => (s.reg rB).toNat % w
    let a8 := (s.reg rA).extractLsb' 0 8
    let a16 := (s.reg rA).extractLsb' 0 16
    let runs (i : Instr) (low whole : Word → Prop) : Prop :=
      ∃ r n, exec i s = .next (completed { s with regs := s.regs.write rA r, draws := n }) ∧ low r ∧
        (s.params.narrowUpper = .extended → whole r ∧ n = s.draws)
    runs (.lsrb rA rB) (fun r => r.toNat % 2 ^ 8 = a8.toNat / 2 ^ amount 8) (fun r => r.toNat = a8.toNat / 2 ^ amount 8) ∧
    runs (.lsrh rA rB) (fun r => r.toNat % 2 ^ 16 = a16.toNat / 2 ^ amount 16)
      (fun r => r.toNat = a16.toNat / 2 ^ amount 16) ∧
    runs (.asrb rA rB) (fun r => (r.extractLsb' 0 8).toInt = a8.toInt / 2 ^ amount 8)
      (fun r => r.toInt = a8.toInt / 2 ^ amount 8) ∧
    runs (.asrh rA rB) (fun r => (r.extractLsb' 0 16).toInt = a16.toInt / 2 ^ amount 16)
      (fun r => r.toInt = a16.toInt / 2 ^ amount 16)
end

