-- ==== Sys2Proof/Laws/Arith.lean ====
section
/-! SUPPORT. Laws/Arith.lean: what the arithmetic operations compute, in exact numbers. -/

namespace Sys2Proof.Machine

/-- A concatenation as a number: the left part is the more significant (R12). -/
theorem toNat_append_eq {n m : Nat} (x : BitVec n) (y : BitVec m) : (x ++ y).toNat = x.toNat * 2 ^ m + y.toNat := by
  rw [BitVec.toNat_append, ← Nat.shiftLeft_add_eq_or_of_lt y.isLt, Nat.shiftLeft_eq]

/-- The result of an addition (R178). -/
theorem addC_r {w : Nat} (a b : BitVec w) (c : Bool) : (addC a b c).r = BitVec.ofNat w (a.toNat + b.toNat + c.toNat) := rfl

/-- The flags of a 32-bit addition, V as the exact signed sum out of range (R178). -/
theorem addC_flags (a b : Word) (c : Bool) :
    (addC a b c).flags =
      { z := decide ((a.toNat + b.toNat + c.toNat) % 2 ^ 32 = 0), c := decide (2 ^ 32 ≤ a.toNat + b.toNat + c.toNat),
        v := decide (a.toInt + b.toInt + (c.toNat : Int) < -2 ^ 31 ∨ 2 ^ 31 ≤ a.toInt + b.toInt + (c.toNat : Int)),
        n := decide (2 ^ 31 ≤ (a.toNat + b.toNat + c.toNat) % 2 ^ 32) } := by
  have ha := a.isLt
  have hb := b.isLt
  have hc : c.toNat ≤ 1 := by cases c <;> simp
  simp only [addC, Flags.mk.injEq, BitVec.toNat_ofNat, BitVec.msb_eq_decide, BitVec.toInt_eq_toNat_cond]
  refine ⟨trivial, trivial, ?_, trivial⟩
  rw [Bool.eq_iff_iff]
  simp
  split <;> split <;> omega

/-- `LSL` (R179): a multiplication, modulo 2^w. -/
theorem lslBy_toNat {w : Nat} (p : Config.ShiftGe32) (x : BitVec w) (n : Nat) :
    (lslBy p x n).toNat = x.toNat * 2 ^ shiftAmount p w n % 2 ^ w := by
  unfold lslBy
  generalize shiftAmount p w n = m
  show (if m < w then x <<< m else 0#w).toNat = _
  split
  · simp [Nat.shiftLeft_eq]
  · have e : 2 ^ m = 2 ^ w * 2 ^ (m - w) := by rw [← Nat.pow_add]; congr 1; omega
    rw [e, ← Nat.mul_assoc, Nat.mul_comm x.toNat, Nat.mul_assoc, Nat.mul_mod_right]
    simp

/-- `LSR` (R179): a division, rounded down. -/
theorem lsrBy_toNat {w : Nat} (p : Config.ShiftGe32) (x : BitVec w) (n : Nat) :
    (lsrBy p x n).toNat = x.toNat / 2 ^ shiftAmount p w n := by
  unfold lsrBy
  generalize shiftAmount p w n = m
  show (if m < w then x >>> m else 0#w).toNat = _
  split
  · simp [Nat.shiftRight_eq_div_pow]
  · rw [Nat.div_eq_of_lt]
    · simp
    · exact Nat.lt_of_lt_of_le x.isLt (Nat.pow_le_pow_right (by omega) (by omega))

/-- `ASR` (R179): a signed division, rounded down. -/
theorem asrBy_toInt {w : Nat} (_hw : 0 < w) (p : Config.ShiftGe32) (x : BitVec w) (n : Nat) :
    (asrBy p x n).toInt = x.toInt / 2 ^ shiftAmount p w n := by
  unfold asrBy
  generalize shiftAmount p w n = m
  rw [BitVec.toInt_sshiftRight, Int.shiftRight_eq_div_pow]
  by_cases h : m ≤ w - 1
  · rw [Nat.min_eq_left h]
    simp
  · rw [Nat.min_eq_right (by omega)]
    have h1 := BitVec.le_toInt x
    have h2 := BitVec.toInt_lt (x := x)
    have h3 : (2 : Int) ^ (w - 1) ≤ 2 ^ m := by exact_mod_cast Nat.pow_le_pow_right (by omega) (by omega)
    have h0 : (0 : Int) < 2 ^ (w - 1) := by positivity
    push_cast
    by_cases hx : 0 ≤ x.toInt
    · rw [Int.ediv_eq_zero_of_lt hx h2, Int.ediv_eq_zero_of_lt hx (by omega)]
    · have e : ∀ y : Int, 2 ^ (w - 1) ≤ y → x.toInt / y = -1 := by
        intro y hy
        rw [Int.ediv_eq_iff_of_pos (by omega)]
        constructor <;> linarith
      rw [e _ (le_refl _), e _ h3]

/-- The unsigned quotient is exact (R282). -/
theorem quotU_toNat {w : Nat} (n d : BitVec w) : (quotU n d).toNat = n.toNat / d.toNat := by
  rw [quotU, BitVec.toNat_ofNat]
  exact Nat.mod_eq_of_lt (Nat.lt_of_le_of_lt (Nat.div_le_self _ _) n.isLt)

/-- The unsigned remainder is exact (R284). -/
theorem remU_toNat {w : Nat} (n d : BitVec w) : (remU n d).toNat = n.toNat % d.toNat := by
  rw [remU, BitVec.toNat_ofNat]
  exact Nat.mod_eq_of_lt (Nat.lt_of_le_of_lt (Nat.mod_le _ _) n.isLt)

end Sys2Proof.Machine
end

