-- ==== Sys2Proof/Laws/State.lean ====
section
/-! SUPPORT. Laws/State.lean: one lemma per field per update of the state, true by rfl, so that no later proof unfolds a
record update; and, for the updates that choose by a case, the fields no case touches. -/

namespace Sys2Proof.Machine

/-! `State.setReg` -/
@[simp] theorem State.setReg_regs (s : State) (i : Reg) (v : Word) : (s.setReg i v).regs = s.regs.write i v := rfl
@[simp] theorem State.setReg_pc (s : State) (i : Reg) (v : Word) : (s.setReg i v).pc = s.pc := rfl
@[simp] theorem State.setReg_flags (s : State) (i : Reg) (v : Word) : (s.setReg i v).flags = s.flags := rfl
@[simp] theorem State.setReg_hi (s : State) (i : Reg) (v : Word) : (s.setReg i v).hi = s.hi := rfl
@[simp] theorem State.setReg_lo (s : State) (i : Reg) (v : Word) : (s.setReg i v).lo = s.lo := rfl
@[simp] theorem State.setReg_ids (s : State) (i : Reg) (v : Word) : (s.setReg i v).ids = s.ids := rfl
@[simp] theorem State.setReg_ira (s : State) (i : Reg) (v : Word) : (s.setReg i v).ira = s.ira := rfl
@[simp] theorem State.setReg_ie (s : State) (i : Reg) (v : Word) : (s.setReg i v).ie = s.ie := rfl
@[simp] theorem State.setReg_ity (s : State) (i : Reg) (v : Word) : (s.setReg i v).ity = s.ity := rfl
@[simp] theorem State.setReg_sty (s : State) (i : Reg) (v : Word) : (s.setReg i v).sty = s.sty := rfl
@[simp] theorem State.setReg_preHave (s : State) (i : Reg) (v : Word) : (s.setReg i v).preHave = s.preHave := rfl
@[simp] theorem State.setReg_preImm (s : State) (i : Reg) (v : Word) : (s.setReg i v).preImm = s.preImm := rfl
@[simp] theorem State.setReg_lpreHave (s : State) (i : Reg) (v : Word) : (s.setReg i v).lpreHave = s.lpreHave := rfl
@[simp] theorem State.setReg_lpreImm (s : State) (i : Reg) (v : Word) : (s.setReg i v).lpreImm = s.lpreImm := rfl
@[simp] theorem State.setReg_indexHave (s : State) (i : Reg) (v : Word) : (s.setReg i v).indexHave = s.indexHave := rfl
@[simp] theorem State.setReg_indexReg (s : State) (i : Reg) (v : Word) : (s.setReg i v).indexReg = s.indexReg := rfl
@[simp] theorem State.setReg_irqPending (s : State) (i : Reg) (v : Word) : (s.setReg i v).irqPending = s.irqPending := rfl
@[simp] theorem State.setReg_irqSource (s : State) (i : Reg) (v : Word) : (s.setReg i v).irqSource = s.irqSource := rfl
@[simp] theorem State.setReg_mem (s : State) (i : Reg) (v : Word) : (s.setReg i v).mem = s.mem := rfl
@[simp] theorem State.setReg_params (s : State) (i : Reg) (v : Word) : (s.setReg i v).params = s.params := rfl
@[simp] theorem State.setReg_draws (s : State) (i : Reg) (v : Word) : (s.setReg i v).draws = s.draws := rfl

/-! `State.setFlags` -/
@[simp] theorem State.setFlags_regs (s : State) (f : Flags) : (s.setFlags f).regs = s.regs := rfl
@[simp] theorem State.setFlags_pc (s : State) (f : Flags) : (s.setFlags f).pc = s.pc := rfl
@[simp] theorem State.setFlags_flags (s : State) (f : Flags) : (s.setFlags f).flags = f := rfl
@[simp] theorem State.setFlags_hi (s : State) (f : Flags) : (s.setFlags f).hi = s.hi := rfl
@[simp] theorem State.setFlags_lo (s : State) (f : Flags) : (s.setFlags f).lo = s.lo := rfl
@[simp] theorem State.setFlags_ids (s : State) (f : Flags) : (s.setFlags f).ids = s.ids := rfl
@[simp] theorem State.setFlags_ira (s : State) (f : Flags) : (s.setFlags f).ira = s.ira := rfl
@[simp] theorem State.setFlags_ie (s : State) (f : Flags) : (s.setFlags f).ie = s.ie := rfl
@[simp] theorem State.setFlags_ity (s : State) (f : Flags) : (s.setFlags f).ity = s.ity := rfl
@[simp] theorem State.setFlags_sty (s : State) (f : Flags) : (s.setFlags f).sty = s.sty := rfl
@[simp] theorem State.setFlags_preHave (s : State) (f : Flags) : (s.setFlags f).preHave = s.preHave := rfl
@[simp] theorem State.setFlags_preImm (s : State) (f : Flags) : (s.setFlags f).preImm = s.preImm := rfl
@[simp] theorem State.setFlags_lpreHave (s : State) (f : Flags) : (s.setFlags f).lpreHave = s.lpreHave := rfl
@[simp] theorem State.setFlags_lpreImm (s : State) (f : Flags) : (s.setFlags f).lpreImm = s.lpreImm := rfl
@[simp] theorem State.setFlags_indexHave (s : State) (f : Flags) : (s.setFlags f).indexHave = s.indexHave := rfl
@[simp] theorem State.setFlags_indexReg (s : State) (f : Flags) : (s.setFlags f).indexReg = s.indexReg := rfl
@[simp] theorem State.setFlags_irqPending (s : State) (f : Flags) : (s.setFlags f).irqPending = s.irqPending := rfl
@[simp] theorem State.setFlags_irqSource (s : State) (f : Flags) : (s.setFlags f).irqSource = s.irqSource := rfl
@[simp] theorem State.setFlags_mem (s : State) (f : Flags) : (s.setFlags f).mem = s.mem := rfl
@[simp] theorem State.setFlags_params (s : State) (f : Flags) : (s.setFlags f).params = s.params := rfl
@[simp] theorem State.setFlags_draws (s : State) (f : Flags) : (s.setFlags f).draws = s.draws := rfl

/-! `State.setHilo` -/
@[simp] theorem State.setHilo_regs (s : State) (r : DWord) : (s.setHilo r).regs = s.regs := rfl
@[simp] theorem State.setHilo_pc (s : State) (r : DWord) : (s.setHilo r).pc = s.pc := rfl
@[simp] theorem State.setHilo_flags (s : State) (r : DWord) : (s.setHilo r).flags = s.flags := rfl
@[simp] theorem State.setHilo_hi (s : State) (r : DWord) : (s.setHilo r).hi = r.extractLsb' 32 32 := rfl
@[simp] theorem State.setHilo_lo (s : State) (r : DWord) : (s.setHilo r).lo = r.extractLsb' 0 32 := rfl
@[simp] theorem State.setHilo_ids (s : State) (r : DWord) : (s.setHilo r).ids = s.ids := rfl
@[simp] theorem State.setHilo_ira (s : State) (r : DWord) : (s.setHilo r).ira = s.ira := rfl
@[simp] theorem State.setHilo_ie (s : State) (r : DWord) : (s.setHilo r).ie = s.ie := rfl
@[simp] theorem State.setHilo_ity (s : State) (r : DWord) : (s.setHilo r).ity = s.ity := rfl
@[simp] theorem State.setHilo_sty (s : State) (r : DWord) : (s.setHilo r).sty = s.sty := rfl
@[simp] theorem State.setHilo_preHave (s : State) (r : DWord) : (s.setHilo r).preHave = s.preHave := rfl
@[simp] theorem State.setHilo_preImm (s : State) (r : DWord) : (s.setHilo r).preImm = s.preImm := rfl
@[simp] theorem State.setHilo_lpreHave (s : State) (r : DWord) : (s.setHilo r).lpreHave = s.lpreHave := rfl
@[simp] theorem State.setHilo_lpreImm (s : State) (r : DWord) : (s.setHilo r).lpreImm = s.lpreImm := rfl
@[simp] theorem State.setHilo_indexHave (s : State) (r : DWord) : (s.setHilo r).indexHave = s.indexHave := rfl
@[simp] theorem State.setHilo_indexReg (s : State) (r : DWord) : (s.setHilo r).indexReg = s.indexReg := rfl
@[simp] theorem State.setHilo_irqPending (s : State) (r : DWord) : (s.setHilo r).irqPending = s.irqPending := rfl
@[simp] theorem State.setHilo_irqSource (s : State) (r : DWord) : (s.setHilo r).irqSource = s.irqSource := rfl
@[simp] theorem State.setHilo_mem (s : State) (r : DWord) : (s.setHilo r).mem = s.mem := rfl
@[simp] theorem State.setHilo_params (s : State) (r : DWord) : (s.setHilo r).params = s.params := rfl
@[simp] theorem State.setHilo_draws (s : State) (r : DWord) : (s.setHilo r).draws = s.draws := rfl

/-! `State.storeBytes` -/
@[simp] theorem State.storeBytes_regs (s : State) (a : Word) (bs : List Byte) : (s.storeBytes a bs).regs = s.regs := rfl
@[simp] theorem State.storeBytes_pc (s : State) (a : Word) (bs : List Byte) : (s.storeBytes a bs).pc = s.pc := rfl
@[simp] theorem State.storeBytes_flags (s : State) (a : Word) (bs : List Byte) : (s.storeBytes a bs).flags = s.flags := rfl
@[simp] theorem State.storeBytes_hi (s : State) (a : Word) (bs : List Byte) : (s.storeBytes a bs).hi = s.hi := rfl
@[simp] theorem State.storeBytes_lo (s : State) (a : Word) (bs : List Byte) : (s.storeBytes a bs).lo = s.lo := rfl
@[simp] theorem State.storeBytes_ids (s : State) (a : Word) (bs : List Byte) : (s.storeBytes a bs).ids = s.ids := rfl
@[simp] theorem State.storeBytes_ira (s : State) (a : Word) (bs : List Byte) : (s.storeBytes a bs).ira = s.ira := rfl
@[simp] theorem State.storeBytes_ie (s : State) (a : Word) (bs : List Byte) : (s.storeBytes a bs).ie = s.ie := rfl
@[simp] theorem State.storeBytes_ity (s : State) (a : Word) (bs : List Byte) : (s.storeBytes a bs).ity = s.ity := rfl
@[simp] theorem State.storeBytes_sty (s : State) (a : Word) (bs : List Byte) : (s.storeBytes a bs).sty = s.sty := rfl
@[simp] theorem State.storeBytes_preHave (s : State) (a : Word) (bs : List Byte) : (s.storeBytes a bs).preHave = s.preHave := rfl
@[simp] theorem State.storeBytes_preImm (s : State) (a : Word) (bs : List Byte) : (s.storeBytes a bs).preImm = s.preImm := rfl
@[simp] theorem State.storeBytes_lpreHave (s : State) (a : Word) (bs : List Byte) : (s.storeBytes a bs).lpreHave = s.lpreHave := rfl
@[simp] theorem State.storeBytes_lpreImm (s : State) (a : Word) (bs : List Byte) : (s.storeBytes a bs).lpreImm = s.lpreImm := rfl
@[simp] theorem State.storeBytes_indexHave (s : State) (a : Word) (bs : List Byte) : (s.storeBytes a bs).indexHave = s.indexHave := rfl
@[simp] theorem State.storeBytes_indexReg (s : State) (a : Word) (bs : List Byte) : (s.storeBytes a bs).indexReg = s.indexReg := rfl
@[simp] theorem State.storeBytes_irqPending (s : State) (a : Word) (bs : List Byte) : (s.storeBytes a bs).irqPending = s.irqPending := rfl
@[simp] theorem State.storeBytes_irqSource (s : State) (a : Word) (bs : List Byte) : (s.storeBytes a bs).irqSource = s.irqSource := rfl
@[simp] theorem State.storeBytes_mem (s : State) (a : Word) (bs : List Byte) : (s.storeBytes a bs).mem = s.mem.writeBytes a bs := rfl
@[simp] theorem State.storeBytes_params (s : State) (a : Word) (bs : List Byte) : (s.storeBytes a bs).params = s.params := rfl
@[simp] theorem State.storeBytes_draws (s : State) (a : Word) (bs : List Byte) : (s.storeBytes a bs).draws = s.draws := rfl

/-! `State.clearPrefix` -/
@[simp] theorem State.clearPrefix_regs (s : State) : (s.clearPrefix).regs = s.regs := rfl
@[simp] theorem State.clearPrefix_pc (s : State) : (s.clearPrefix).pc = s.pc := rfl
@[simp] theorem State.clearPrefix_flags (s : State) : (s.clearPrefix).flags = s.flags := rfl
@[simp] theorem State.clearPrefix_hi (s : State) : (s.clearPrefix).hi = s.hi := rfl
@[simp] theorem State.clearPrefix_lo (s : State) : (s.clearPrefix).lo = s.lo := rfl
@[simp] theorem State.clearPrefix_ids (s : State) : (s.clearPrefix).ids = s.ids := rfl
@[simp] theorem State.clearPrefix_ira (s : State) : (s.clearPrefix).ira = s.ira := rfl
@[simp] theorem State.clearPrefix_ie (s : State) : (s.clearPrefix).ie = s.ie := rfl
@[simp] theorem State.clearPrefix_ity (s : State) : (s.clearPrefix).ity = s.ity := rfl
@[simp] theorem State.clearPrefix_sty (s : State) : (s.clearPrefix).sty = s.sty := rfl
@[simp] theorem State.clearPrefix_preHave (s : State) : (s.clearPrefix).preHave = false := rfl
@[simp] theorem State.clearPrefix_preImm (s : State) : (s.clearPrefix).preImm = s.preImm := rfl
@[simp] theorem State.clearPrefix_lpreHave (s : State) : (s.clearPrefix).lpreHave = false := rfl
@[simp] theorem State.clearPrefix_lpreImm (s : State) : (s.clearPrefix).lpreImm = s.lpreImm := rfl
@[simp] theorem State.clearPrefix_indexHave (s : State) : (s.clearPrefix).indexHave = false := rfl
@[simp] theorem State.clearPrefix_indexReg (s : State) : (s.clearPrefix).indexReg = s.indexReg := rfl
@[simp] theorem State.clearPrefix_irqPending (s : State) : (s.clearPrefix).irqPending = s.irqPending := rfl
@[simp] theorem State.clearPrefix_irqSource (s : State) : (s.clearPrefix).irqSource = s.irqSource := rfl
@[simp] theorem State.clearPrefix_mem (s : State) : (s.clearPrefix).mem = s.mem := rfl
@[simp] theorem State.clearPrefix_params (s : State) : (s.clearPrefix).params = s.params := rfl
@[simp] theorem State.clearPrefix_draws (s : State) : (s.clearPrefix).draws = s.draws := rfl

/-! `State.setPc` -/
@[simp] theorem State.setPc_regs (s : State) (t : Word) : (s.setPc t).regs = s.regs := rfl
@[simp] theorem State.setPc_pc (s : State) (t : Word) : (s.setPc t).pc = t := rfl
@[simp] theorem State.setPc_flags (s : State) (t : Word) : (s.setPc t).flags = s.flags := rfl
@[simp] theorem State.setPc_hi (s : State) (t : Word) : (s.setPc t).hi = s.hi := rfl
@[simp] theorem State.setPc_lo (s : State) (t : Word) : (s.setPc t).lo = s.lo := rfl
@[simp] theorem State.setPc_ids (s : State) (t : Word) : (s.setPc t).ids = s.ids := rfl
@[simp] theorem State.setPc_ira (s : State) (t : Word) : (s.setPc t).ira = s.ira := rfl
@[simp] theorem State.setPc_ie (s : State) (t : Word) : (s.setPc t).ie = s.ie := rfl
@[simp] theorem State.setPc_ity (s : State) (t : Word) : (s.setPc t).ity = s.ity := rfl
@[simp] theorem State.setPc_sty (s : State) (t : Word) : (s.setPc t).sty = s.sty := rfl
@[simp] theorem State.setPc_preHave (s : State) (t : Word) : (s.setPc t).preHave = s.preHave := rfl
@[simp] theorem State.setPc_preImm (s : State) (t : Word) : (s.setPc t).preImm = s.preImm := rfl
@[simp] theorem State.setPc_lpreHave (s : State) (t : Word) : (s.setPc t).lpreHave = s.lpreHave := rfl
@[simp] theorem State.setPc_lpreImm (s : State) (t : Word) : (s.setPc t).lpreImm = s.lpreImm := rfl
@[simp] theorem State.setPc_indexHave (s : State) (t : Word) : (s.setPc t).indexHave = s.indexHave := rfl
@[simp] theorem State.setPc_indexReg (s : State) (t : Word) : (s.setPc t).indexReg = s.indexReg := rfl
@[simp] theorem State.setPc_irqPending (s : State) (t : Word) : (s.setPc t).irqPending = s.irqPending := rfl
@[simp] theorem State.setPc_irqSource (s : State) (t : Word) : (s.setPc t).irqSource = s.irqSource := rfl
@[simp] theorem State.setPc_mem (s : State) (t : Word) : (s.setPc t).mem = s.mem := rfl
@[simp] theorem State.setPc_params (s : State) (t : Word) : (s.setPc t).params = s.params := rfl
@[simp] theorem State.setPc_draws (s : State) (t : Word) : (s.setPc t).draws = s.draws := rfl

/-! `State.retire` -/
@[simp] theorem State.retire_regs (s : State) : (s.retire).regs = s.regs := rfl
@[simp] theorem State.retire_pc (s : State) : (s.retire).pc = s.pc + 2#32 := rfl
@[simp] theorem State.retire_flags (s : State) : (s.retire).flags = s.flags := rfl
@[simp] theorem State.retire_hi (s : State) : (s.retire).hi = s.hi := rfl
@[simp] theorem State.retire_lo (s : State) : (s.retire).lo = s.lo := rfl
@[simp] theorem State.retire_ids (s : State) : (s.retire).ids = s.ids := rfl
@[simp] theorem State.retire_ira (s : State) : (s.retire).ira = s.ira := rfl
@[simp] theorem State.retire_ie (s : State) : (s.retire).ie = s.ie := rfl
@[simp] theorem State.retire_ity (s : State) : (s.retire).ity = s.ity := rfl
@[simp] theorem State.retire_sty (s : State) : (s.retire).sty = s.sty := rfl
@[simp] theorem State.retire_preHave (s : State) : (s.retire).preHave = false := rfl
@[simp] theorem State.retire_preImm (s : State) : (s.retire).preImm = s.preImm := rfl
@[simp] theorem State.retire_lpreHave (s : State) : (s.retire).lpreHave = false := rfl
@[simp] theorem State.retire_lpreImm (s : State) : (s.retire).lpreImm = s.lpreImm := rfl
@[simp] theorem State.retire_indexHave (s : State) : (s.retire).indexHave = false := rfl
@[simp] theorem State.retire_indexReg (s : State) : (s.retire).indexReg = s.indexReg := rfl
@[simp] theorem State.retire_irqPending (s : State) : (s.retire).irqPending = s.irqPending := rfl
@[simp] theorem State.retire_irqSource (s : State) : (s.retire).irqSource = s.irqSource := rfl
@[simp] theorem State.retire_mem (s : State) : (s.retire).mem = s.mem := rfl
@[simp] theorem State.retire_params (s : State) : (s.retire).params = s.params := rfl
@[simp] theorem State.retire_draws (s : State) : (s.retire).draws = s.draws := rfl

/-! `State.jump` -/
@[simp] theorem State.jump_regs (s : State) (t : Word) : (s.jump t).regs = s.regs := rfl
@[simp] theorem State.jump_pc (s : State) (t : Word) : (s.jump t).pc = t := rfl
@[simp] theorem State.jump_flags (s : State) (t : Word) : (s.jump t).flags = s.flags := rfl
@[simp] theorem State.jump_hi (s : State) (t : Word) : (s.jump t).hi = s.hi := rfl
@[simp] theorem State.jump_lo (s : State) (t : Word) : (s.jump t).lo = s.lo := rfl
@[simp] theorem State.jump_ids (s : State) (t : Word) : (s.jump t).ids = s.ids := rfl
@[simp] theorem State.jump_ira (s : State) (t : Word) : (s.jump t).ira = s.ira := rfl
@[simp] theorem State.jump_ie (s : State) (t : Word) : (s.jump t).ie = s.ie := rfl
@[simp] theorem State.jump_ity (s : State) (t : Word) : (s.jump t).ity = s.ity := rfl
@[simp] theorem State.jump_sty (s : State) (t : Word) : (s.jump t).sty = s.sty := rfl
@[simp] theorem State.jump_preHave (s : State) (t : Word) : (s.jump t).preHave = false := rfl
@[simp] theorem State.jump_preImm (s : State) (t : Word) : (s.jump t).preImm = s.preImm := rfl
@[simp] theorem State.jump_lpreHave (s : State) (t : Word) : (s.jump t).lpreHave = false := rfl
@[simp] theorem State.jump_lpreImm (s : State) (t : Word) : (s.jump t).lpreImm = s.lpreImm := rfl
@[simp] theorem State.jump_indexHave (s : State) (t : Word) : (s.jump t).indexHave = false := rfl
@[simp] theorem State.jump_indexReg (s : State) (t : Word) : (s.jump t).indexReg = s.indexReg := rfl
@[simp] theorem State.jump_irqPending (s : State) (t : Word) : (s.jump t).irqPending = s.irqPending := rfl
@[simp] theorem State.jump_irqSource (s : State) (t : Word) : (s.jump t).irqSource = s.irqSource := rfl
@[simp] theorem State.jump_mem (s : State) (t : Word) : (s.jump t).mem = s.mem := rfl
@[simp] theorem State.jump_params (s : State) (t : Word) : (s.jump t).params = s.params := rfl
@[simp] theorem State.jump_draws (s : State) (t : Word) : (s.jump t).draws = s.draws := rfl

/-! `State.raiseSwi` -/
@[simp] theorem State.raiseSwi_regs (s : State) (arg : Word) : (s.raiseSwi arg).regs = s.regs := rfl
@[simp] theorem State.raiseSwi_pc (s : State) (arg : Word) : (s.raiseSwi arg).pc = s.ids := rfl
@[simp] theorem State.raiseSwi_flags (s : State) (arg : Word) : (s.raiseSwi arg).flags = s.flags := rfl
@[simp] theorem State.raiseSwi_hi (s : State) (arg : Word) : (s.raiseSwi arg).hi = s.hi := rfl
@[simp] theorem State.raiseSwi_lo (s : State) (arg : Word) : (s.raiseSwi arg).lo = s.lo := rfl
@[simp] theorem State.raiseSwi_ids (s : State) (arg : Word) : (s.raiseSwi arg).ids = s.ids := rfl
@[simp] theorem State.raiseSwi_ira (s : State) (arg : Word) : (s.raiseSwi arg).ira = s.pc + 2#32 := rfl
@[simp] theorem State.raiseSwi_ie (s : State) (arg : Word) : (s.raiseSwi arg).ie = if s.params.swiClearsIe then false else s.ie := rfl
@[simp] theorem State.raiseSwi_ity (s : State) (arg : Word) : (s.raiseSwi arg).ity = true := rfl
@[simp] theorem State.raiseSwi_sty (s : State) (arg : Word) : (s.raiseSwi arg).sty = arg := rfl
@[simp] theorem State.raiseSwi_preHave (s : State) (arg : Word) : (s.raiseSwi arg).preHave = false := rfl
@[simp] theorem State.raiseSwi_preImm (s : State) (arg : Word) : (s.raiseSwi arg).preImm = s.preImm := rfl
@[simp] theorem State.raiseSwi_lpreHave (s : State) (arg : Word) : (s.raiseSwi arg).lpreHave = false := rfl
@[simp] theorem State.raiseSwi_lpreImm (s : State) (arg : Word) : (s.raiseSwi arg).lpreImm = s.lpreImm := rfl
@[simp] theorem State.raiseSwi_indexHave (s : State) (arg : Word) : (s.raiseSwi arg).indexHave = false := rfl
@[simp] theorem State.raiseSwi_indexReg (s : State) (arg : Word) : (s.raiseSwi arg).indexReg = s.indexReg := rfl
@[simp] theorem State.raiseSwi_irqPending (s : State) (arg : Word) : (s.raiseSwi arg).irqPending = s.irqPending := rfl
@[simp] theorem State.raiseSwi_irqSource (s : State) (arg : Word) : (s.raiseSwi arg).irqSource = s.irqSource := rfl
@[simp] theorem State.raiseSwi_mem (s : State) (arg : Word) : (s.raiseSwi arg).mem = s.mem := rfl
@[simp] theorem State.raiseSwi_params (s : State) (arg : Word) : (s.raiseSwi arg).params = s.params := rfl
@[simp] theorem State.raiseSwi_draws (s : State) (arg : Word) : (s.raiseSwi arg).draws = s.draws := rfl

/-! `State.irqEntry` -/
@[simp] theorem State.irqEntry_regs (s : State) : (s.irqEntry).regs = s.regs := rfl
@[simp] theorem State.irqEntry_pc (s : State) : (s.irqEntry).pc = s.ids := rfl
@[simp] theorem State.irqEntry_flags (s : State) : (s.irqEntry).flags = s.flags := rfl
@[simp] theorem State.irqEntry_hi (s : State) : (s.irqEntry).hi = s.hi := rfl
@[simp] theorem State.irqEntry_lo (s : State) : (s.irqEntry).lo = s.lo := rfl
@[simp] theorem State.irqEntry_ids (s : State) : (s.irqEntry).ids = s.ids := rfl
@[simp] theorem State.irqEntry_ira (s : State) : (s.irqEntry).ira = s.pc := rfl
@[simp] theorem State.irqEntry_ie (s : State) : (s.irqEntry).ie = false := rfl
@[simp] theorem State.irqEntry_ity (s : State) : (s.irqEntry).ity = false := rfl
@[simp] theorem State.irqEntry_sty (s : State) : (s.irqEntry).sty = s.sty := rfl
@[simp] theorem State.irqEntry_preHave (s : State) : (s.irqEntry).preHave = s.preHave := rfl
@[simp] theorem State.irqEntry_preImm (s : State) : (s.irqEntry).preImm = s.preImm := rfl
@[simp] theorem State.irqEntry_lpreHave (s : State) : (s.irqEntry).lpreHave = s.lpreHave := rfl
@[simp] theorem State.irqEntry_lpreImm (s : State) : (s.irqEntry).lpreImm = s.lpreImm := rfl
@[simp] theorem State.irqEntry_indexHave (s : State) : (s.irqEntry).indexHave = s.indexHave := rfl
@[simp] theorem State.irqEntry_indexReg (s : State) : (s.irqEntry).indexReg = s.indexReg := rfl
@[simp] theorem State.irqEntry_irqPending (s : State) : (s.irqEntry).irqPending = s.irqPending := rfl
@[simp] theorem State.irqEntry_irqSource (s : State) : (s.irqEntry).irqSource = s.irqSource := rfl
@[simp] theorem State.irqEntry_mem (s : State) : (s.irqEntry).mem = s.mem := rfl
@[simp] theorem State.irqEntry_params (s : State) : (s.irqEntry).params = s.params := rfl
@[simp] theorem State.irqEntry_draws (s : State) : (s.irqEntry).draws = s.draws := rfl

/-! `State.returnEnabling` -/
@[simp] theorem State.returnEnabling_regs (s : State) : (s.returnEnabling).regs = s.regs := rfl
@[simp] theorem State.returnEnabling_pc (s : State) : (s.returnEnabling).pc = s.ira := rfl
@[simp] theorem State.returnEnabling_flags (s : State) : (s.returnEnabling).flags = s.flags := rfl
@[simp] theorem State.returnEnabling_hi (s : State) : (s.returnEnabling).hi = s.hi := rfl
@[simp] theorem State.returnEnabling_lo (s : State) : (s.returnEnabling).lo = s.lo := rfl
@[simp] theorem State.returnEnabling_ids (s : State) : (s.returnEnabling).ids = s.ids := rfl
@[simp] theorem State.returnEnabling_ira (s : State) : (s.returnEnabling).ira = s.ira := rfl
@[simp] theorem State.returnEnabling_ie (s : State) : (s.returnEnabling).ie = true := rfl
@[simp] theorem State.returnEnabling_ity (s : State) : (s.returnEnabling).ity = s.ity := rfl
@[simp] theorem State.returnEnabling_sty (s : State) : (s.returnEnabling).sty = s.sty := rfl
@[simp] theorem State.returnEnabling_preHave (s : State) : (s.returnEnabling).preHave = false := rfl
@[simp] theorem State.returnEnabling_preImm (s : State) : (s.returnEnabling).preImm = s.preImm := rfl
@[simp] theorem State.returnEnabling_lpreHave (s : State) : (s.returnEnabling).lpreHave = false := rfl
@[simp] theorem State.returnEnabling_lpreImm (s : State) : (s.returnEnabling).lpreImm = s.lpreImm := rfl
@[simp] theorem State.returnEnabling_indexHave (s : State) : (s.returnEnabling).indexHave = false := rfl
@[simp] theorem State.returnEnabling_indexReg (s : State) : (s.returnEnabling).indexReg = s.indexReg := rfl
@[simp] theorem State.returnEnabling_irqPending (s : State) : (s.returnEnabling).irqPending = s.irqPending := rfl
@[simp] theorem State.returnEnabling_irqSource (s : State) : (s.returnEnabling).irqSource = s.irqSource := rfl
@[simp] theorem State.returnEnabling_mem (s : State) : (s.returnEnabling).mem = s.mem := rfl
@[simp] theorem State.returnEnabling_params (s : State) : (s.returnEnabling).params = s.params := rfl
@[simp] theorem State.returnEnabling_draws (s : State) : (s.returnEnabling).draws = s.draws := rfl

/-! `State.returnKeepingIe` -/
@[simp] theorem State.returnKeepingIe_regs (s : State) : (s.returnKeepingIe).regs = s.regs := rfl
@[simp] theorem State.returnKeepingIe_pc (s : State) : (s.returnKeepingIe).pc = s.ira := rfl
@[simp] theorem State.returnKeepingIe_flags (s : State) : (s.returnKeepingIe).flags = s.flags := rfl
@[simp] theorem State.returnKeepingIe_hi (s : State) : (s.returnKeepingIe).hi = s.hi := rfl
@[simp] theorem State.returnKeepingIe_lo (s : State) : (s.returnKeepingIe).lo = s.lo := rfl
@[simp] theorem State.returnKeepingIe_ids (s : State) : (s.returnKeepingIe).ids = s.ids := rfl
@[simp] theorem State.returnKeepingIe_ira (s : State) : (s.returnKeepingIe).ira = s.ira := rfl
@[simp] theorem State.returnKeepingIe_ie (s : State) : (s.returnKeepingIe).ie = s.ie := rfl
@[simp] theorem State.returnKeepingIe_ity (s : State) : (s.returnKeepingIe).ity = s.ity := rfl
@[simp] theorem State.returnKeepingIe_sty (s : State) : (s.returnKeepingIe).sty = s.sty := rfl
@[simp] theorem State.returnKeepingIe_preHave (s : State) : (s.returnKeepingIe).preHave = false := rfl
@[simp] theorem State.returnKeepingIe_preImm (s : State) : (s.returnKeepingIe).preImm = s.preImm := rfl
@[simp] theorem State.returnKeepingIe_lpreHave (s : State) : (s.returnKeepingIe).lpreHave = false := rfl
@[simp] theorem State.returnKeepingIe_lpreImm (s : State) : (s.returnKeepingIe).lpreImm = s.lpreImm := rfl
@[simp] theorem State.returnKeepingIe_indexHave (s : State) : (s.returnKeepingIe).indexHave = false := rfl
@[simp] theorem State.returnKeepingIe_indexReg (s : State) : (s.returnKeepingIe).indexReg = s.indexReg := rfl
@[simp] theorem State.returnKeepingIe_irqPending (s : State) : (s.returnKeepingIe).irqPending = s.irqPending := rfl
@[simp] theorem State.returnKeepingIe_irqSource (s : State) : (s.returnKeepingIe).irqSource = s.irqSource := rfl
@[simp] theorem State.returnKeepingIe_mem (s : State) : (s.returnKeepingIe).mem = s.mem := rfl
@[simp] theorem State.returnKeepingIe_params (s : State) : (s.returnKeepingIe).params = s.params := rfl
@[simp] theorem State.returnKeepingIe_draws (s : State) : (s.returnKeepingIe).draws = s.draws := rfl

/-! `State.writeS`: the fields that no special-purpose register stands for -/
@[simp] theorem State.writeS_regs (s : State) (k : SReg) (v : Word) : (s.writeS k v).regs = s.regs := by
  cases k <;> rfl
@[simp] theorem State.writeS_pc (s : State) (k : SReg) (v : Word) : (s.writeS k v).pc = s.pc := by
  cases k <;> rfl
@[simp] theorem State.writeS_preHave (s : State) (k : SReg) (v : Word) : (s.writeS k v).preHave = s.preHave := by
  cases k <;> rfl
@[simp] theorem State.writeS_preImm (s : State) (k : SReg) (v : Word) : (s.writeS k v).preImm = s.preImm := by
  cases k <;> rfl
@[simp] theorem State.writeS_lpreHave (s : State) (k : SReg) (v : Word) : (s.writeS k v).lpreHave = s.lpreHave := by
  cases k <;> rfl
@[simp] theorem State.writeS_lpreImm (s : State) (k : SReg) (v : Word) : (s.writeS k v).lpreImm = s.lpreImm := by
  cases k <;> rfl
@[simp] theorem State.writeS_indexHave (s : State) (k : SReg) (v : Word) : (s.writeS k v).indexHave = s.indexHave := by
  cases k <;> rfl
@[simp] theorem State.writeS_indexReg (s : State) (k : SReg) (v : Word) : (s.writeS k v).indexReg = s.indexReg := by
  cases k <;> rfl
@[simp] theorem State.writeS_irqPending (s : State) (k : SReg) (v : Word) : (s.writeS k v).irqPending = s.irqPending := by
  cases k <;> rfl
@[simp] theorem State.writeS_irqSource (s : State) (k : SReg) (v : Word) : (s.writeS k v).irqSource = s.irqSource := by
  cases k <;> rfl
@[simp] theorem State.writeS_mem (s : State) (k : SReg) (v : Word) : (s.writeS k v).mem = s.mem := by
  cases k <;> rfl
@[simp] theorem State.writeS_params (s : State) (k : SReg) (v : Word) : (s.writeS k v).params = s.params := by
  cases k <;> rfl
@[simp] theorem State.writeS_draws (s : State) (k : SReg) (v : Word) : (s.writeS k v).draws = s.draws := by
  cases k <;> rfl

/-! `State.branch` -/
@[simp] theorem State.branch_regs (s : State) (c : Bool) (imm : Word) : (s.branch c imm).regs = s.regs := by
  cases c <;> rfl
@[simp] theorem State.branch_pc (s : State) (c : Bool) (imm : Word) :
    (s.branch c imm).pc = if c then s.pc + imm + 2#32 else s.pc + 2#32 := by
  cases c <;> rfl
@[simp] theorem State.branch_flags (s : State) (c : Bool) (imm : Word) : (s.branch c imm).flags = s.flags := by
  cases c <;> rfl
@[simp] theorem State.branch_hi (s : State) (c : Bool) (imm : Word) : (s.branch c imm).hi = s.hi := by
  cases c <;> rfl
@[simp] theorem State.branch_lo (s : State) (c : Bool) (imm : Word) : (s.branch c imm).lo = s.lo := by
  cases c <;> rfl
@[simp] theorem State.branch_ids (s : State) (c : Bool) (imm : Word) : (s.branch c imm).ids = s.ids := by
  cases c <;> rfl
@[simp] theorem State.branch_ira (s : State) (c : Bool) (imm : Word) : (s.branch c imm).ira = s.ira := by
  cases c <;> rfl
@[simp] theorem State.branch_ie (s : State) (c : Bool) (imm : Word) : (s.branch c imm).ie = s.ie := by
  cases c <;> rfl
@[simp] theorem State.branch_ity (s : State) (c : Bool) (imm : Word) : (s.branch c imm).ity = s.ity := by
  cases c <;> rfl
@[simp] theorem State.branch_sty (s : State) (c : Bool) (imm : Word) : (s.branch c imm).sty = s.sty := by
  cases c <;> rfl
@[simp] theorem State.branch_preHave (s : State) (c : Bool) (imm : Word) : (s.branch c imm).preHave = false := by
  cases c <;> rfl
@[simp] theorem State.branch_preImm (s : State) (c : Bool) (imm : Word) : (s.branch c imm).preImm = s.preImm := by
  cases c <;> rfl
@[simp] theorem State.branch_lpreHave (s : State) (c : Bool) (imm : Word) : (s.branch c imm).lpreHave = false := by
  cases c <;> rfl
@[simp] theorem State.branch_lpreImm (s : State) (c : Bool) (imm : Word) : (s.branch c imm).lpreImm = s.lpreImm := by
  cases c <;> rfl
@[simp] theorem State.branch_indexHave (s : State) (c : Bool) (imm : Word) : (s.branch c imm).indexHave = false := by
  cases c <;> rfl
@[simp] theorem State.branch_indexReg (s : State) (c : Bool) (imm : Word) : (s.branch c imm).indexReg = s.indexReg := by
  cases c <;> rfl
@[simp] theorem State.branch_irqPending (s : State) (c : Bool) (imm : Word) : (s.branch c imm).irqPending = s.irqPending := by
  cases c <;> rfl
@[simp] theorem State.branch_irqSource (s : State) (c : Bool) (imm : Word) : (s.branch c imm).irqSource = s.irqSource := by
  cases c <;> rfl
@[simp] theorem State.branch_mem (s : State) (c : Bool) (imm : Word) : (s.branch c imm).mem = s.mem := by
  cases c <;> rfl
@[simp] theorem State.branch_params (s : State) (c : Bool) (imm : Word) : (s.branch c imm).params = s.params := by
  cases c <;> rfl
@[simp] theorem State.branch_draws (s : State) (c : Bool) (imm : Word) : (s.branch c imm).draws = s.draws := by
  cases c <;> rfl

/-! `State.sampleIrq` -/
@[simp] theorem State.sampleIrq_regs (s : State) : s.sampleIrq.regs = s.regs := by
  unfold State.sampleIrq; split <;> rfl
@[simp] theorem State.sampleIrq_pc (s : State) : s.sampleIrq.pc = s.pc := by
  unfold State.sampleIrq; split <;> rfl
@[simp] theorem State.sampleIrq_flags (s : State) : s.sampleIrq.flags = s.flags := by
  unfold State.sampleIrq; split <;> rfl
@[simp] theorem State.sampleIrq_hi (s : State) : s.sampleIrq.hi = s.hi := by
  unfold State.sampleIrq; split <;> rfl
@[simp] theorem State.sampleIrq_lo (s : State) : s.sampleIrq.lo = s.lo := by
  unfold State.sampleIrq; split <;> rfl
@[simp] theorem State.sampleIrq_ids (s : State) : s.sampleIrq.ids = s.ids := by
  unfold State.sampleIrq; split <;> rfl
@[simp] theorem State.sampleIrq_ira (s : State) : s.sampleIrq.ira = s.ira := by
  unfold State.sampleIrq; split <;> rfl
@[simp] theorem State.sampleIrq_ie (s : State) : s.sampleIrq.ie = s.ie := by
  unfold State.sampleIrq; split <;> rfl
@[simp] theorem State.sampleIrq_ity (s : State) : s.sampleIrq.ity = s.ity := by
  unfold State.sampleIrq; split <;> rfl
@[simp] theorem State.sampleIrq_sty (s : State) : s.sampleIrq.sty = s.sty := by
  unfold State.sampleIrq; split <;> rfl
@[simp] theorem State.sampleIrq_preHave (s : State) : s.sampleIrq.preHave = s.preHave := by
  unfold State.sampleIrq; split <;> rfl
@[simp] theorem State.sampleIrq_preImm (s : State) : s.sampleIrq.preImm = s.preImm := by
  unfold State.sampleIrq; split <;> rfl
@[simp] theorem State.sampleIrq_lpreHave (s : State) : s.sampleIrq.lpreHave = s.lpreHave := by
  unfold State.sampleIrq; split <;> rfl
@[simp] theorem State.sampleIrq_lpreImm (s : State) : s.sampleIrq.lpreImm = s.lpreImm := by
  unfold State.sampleIrq; split <;> rfl
@[simp] theorem State.sampleIrq_indexHave (s : State) : s.sampleIrq.indexHave = s.indexHave := by
  unfold State.sampleIrq; split <;> rfl
@[simp] theorem State.sampleIrq_indexReg (s : State) : s.sampleIrq.indexReg = s.indexReg := by
  unfold State.sampleIrq; split <;> rfl
@[simp] theorem State.sampleIrq_mem (s : State) : s.sampleIrq.mem = s.mem := by
  unfold State.sampleIrq; split <;> rfl
@[simp] theorem State.sampleIrq_params (s : State) : s.sampleIrq.params = s.params := by
  unfold State.sampleIrq; split <;> rfl
@[simp] theorem State.sampleIrq_draws (s : State) : s.sampleIrq.draws = s.draws := by
  unfold State.sampleIrq; split <;> rfl

/-! `State.writeSum` and `State.writeLogic` -/
@[simp] theorem State.writeSum_regs (s : State) (f : Bool) (i : Reg) (a : Sum 32) :
    (s.writeSum f i a).regs = s.regs.write i a.r := by
  cases f <;> rfl
@[simp] theorem State.writeSum_pc (s : State) (f : Bool) (i : Reg) (a : Sum 32) :
    (s.writeSum f i a).pc = s.pc := by
  cases f <;> rfl
@[simp] theorem State.writeSum_flags (s : State) (f : Bool) (i : Reg) (a : Sum 32) :
    (s.writeSum f i a).flags = if f then a.flags else s.flags := by
  cases f <;> rfl
@[simp] theorem State.writeSum_hi (s : State) (f : Bool) (i : Reg) (a : Sum 32) :
    (s.writeSum f i a).hi = s.hi := by
  cases f <;> rfl
@[simp] theorem State.writeSum_lo (s : State) (f : Bool) (i : Reg) (a : Sum 32) :
    (s.writeSum f i a).lo = s.lo := by
  cases f <;> rfl
@[simp] theorem State.writeSum_ids (s : State) (f : Bool) (i : Reg) (a : Sum 32) :
    (s.writeSum f i a).ids = s.ids := by
  cases f <;> rfl
@[simp] theorem State.writeSum_ira (s : State) (f : Bool) (i : Reg) (a : Sum 32) :
    (s.writeSum f i a).ira = s.ira := by
  cases f <;> rfl
@[simp] theorem State.writeSum_ie (s : State) (f : Bool) (i : Reg) (a : Sum 32) :
    (s.writeSum f i a).ie = s.ie := by
  cases f <;> rfl
@[simp] theorem State.writeSum_ity (s : State) (f : Bool) (i : Reg) (a : Sum 32) :
    (s.writeSum f i a).ity = s.ity := by
  cases f <;> rfl
@[simp] theorem State.writeSum_sty (s : State) (f : Bool) (i : Reg) (a : Sum 32) :
    (s.writeSum f i a).sty = s.sty := by
  cases f <;> rfl
@[simp] theorem State.writeSum_preHave (s : State) (f : Bool) (i : Reg) (a : Sum 32) :
    (s.writeSum f i a).preHave = s.preHave := by
  cases f <;> rfl
@[simp] theorem State.writeSum_preImm (s : State) (f : Bool) (i : Reg) (a : Sum 32) :
    (s.writeSum f i a).preImm = s.preImm := by
  cases f <;> rfl
@[simp] theorem State.writeSum_lpreHave (s : State) (f : Bool) (i : Reg) (a : Sum 32) :
    (s.writeSum f i a).lpreHave = s.lpreHave := by
  cases f <;> rfl
@[simp] theorem State.writeSum_lpreImm (s : State) (f : Bool) (i : Reg) (a : Sum 32) :
    (s.writeSum f i a).lpreImm = s.lpreImm := by
  cases f <;> rfl
@[simp] theorem State.writeSum_indexHave (s : State) (f : Bool) (i : Reg) (a : Sum 32) :
    (s.writeSum f i a).indexHave = s.indexHave := by
  cases f <;> rfl
@[simp] theorem State.writeSum_indexReg (s : State) (f : Bool) (i : Reg) (a : Sum 32) :
    (s.writeSum f i a).indexReg = s.indexReg := by
  cases f <;> rfl
@[simp] theorem State.writeSum_irqPending (s : State) (f : Bool) (i : Reg) (a : Sum 32) :
    (s.writeSum f i a).irqPending = s.irqPending := by
  cases f <;> rfl
@[simp] theorem State.writeSum_irqSource (s : State) (f : Bool) (i : Reg) (a : Sum 32) :
    (s.writeSum f i a).irqSource = s.irqSource := by
  cases f <;> rfl
@[simp] theorem State.writeSum_mem (s : State) (f : Bool) (i : Reg) (a : Sum 32) :
    (s.writeSum f i a).mem = s.mem := by
  cases f <;> rfl
@[simp] theorem State.writeSum_params (s : State) (f : Bool) (i : Reg) (a : Sum 32) :
    (s.writeSum f i a).params = s.params := by
  cases f <;> rfl
@[simp] theorem State.writeSum_draws (s : State) (f : Bool) (i : Reg) (a : Sum 32) :
    (s.writeSum f i a).draws = s.draws := by
  cases f <;> rfl
@[simp] theorem State.writeLogic_regs (s : State) (f : Bool) (i : Reg) (r : Word) :
    (s.writeLogic f i r).regs = s.regs.write i r := by
  cases f <;> rfl
@[simp] theorem State.writeLogic_pc (s : State) (f : Bool) (i : Reg) (r : Word) :
    (s.writeLogic f i r).pc = s.pc := by
  cases f <;> rfl
@[simp] theorem State.writeLogic_flags (s : State) (f : Bool) (i : Reg) (r : Word) :
    (s.writeLogic f i r).flags = if f then s.flags.ofResult r else s.flags := by
  cases f <;> rfl
@[simp] theorem State.writeLogic_hi (s : State) (f : Bool) (i : Reg) (r : Word) :
    (s.writeLogic f i r).hi = s.hi := by
  cases f <;> rfl
@[simp] theorem State.writeLogic_lo (s : State) (f : Bool) (i : Reg) (r : Word) :
    (s.writeLogic f i r).lo = s.lo := by
  cases f <;> rfl
@[simp] theorem State.writeLogic_ids (s : State) (f : Bool) (i : Reg) (r : Word) :
    (s.writeLogic f i r).ids = s.ids := by
  cases f <;> rfl
@[simp] theorem State.writeLogic_ira (s : State) (f : Bool) (i : Reg) (r : Word) :
    (s.writeLogic f i r).ira = s.ira := by
  cases f <;> rfl
@[simp] theorem State.writeLogic_ie (s : State) (f : Bool) (i : Reg) (r : Word) :
    (s.writeLogic f i r).ie = s.ie := by
  cases f <;> rfl
@[simp] theorem State.writeLogic_ity (s : State) (f : Bool) (i : Reg) (r : Word) :
    (s.writeLogic f i r).ity = s.ity := by
  cases f <;> rfl
@[simp] theorem State.writeLogic_sty (s : State) (f : Bool) (i : Reg) (r : Word) :
    (s.writeLogic f i r).sty = s.sty := by
  cases f <;> rfl
@[simp] theorem State.writeLogic_preHave (s : State) (f : Bool) (i : Reg) (r : Word) :
    (s.writeLogic f i r).preHave = s.preHave := by
  cases f <;> rfl
@[simp] theorem State.writeLogic_preImm (s : State) (f : Bool) (i : Reg) (r : Word) :
    (s.writeLogic f i r).preImm = s.preImm := by
  cases f <;> rfl
@[simp] theorem State.writeLogic_lpreHave (s : State) (f : Bool) (i : Reg) (r : Word) :
    (s.writeLogic f i r).lpreHave = s.lpreHave := by
  cases f <;> rfl
@[simp] theorem State.writeLogic_lpreImm (s : State) (f : Bool) (i : Reg) (r : Word) :
    (s.writeLogic f i r).lpreImm = s.lpreImm := by
  cases f <;> rfl
@[simp] theorem State.writeLogic_indexHave (s : State) (f : Bool) (i : Reg) (r : Word) :
    (s.writeLogic f i r).indexHave = s.indexHave := by
  cases f <;> rfl
@[simp] theorem State.writeLogic_indexReg (s : State) (f : Bool) (i : Reg) (r : Word) :
    (s.writeLogic f i r).indexReg = s.indexReg := by
  cases f <;> rfl
@[simp] theorem State.writeLogic_irqPending (s : State) (f : Bool) (i : Reg) (r : Word) :
    (s.writeLogic f i r).irqPending = s.irqPending := by
  cases f <;> rfl
@[simp] theorem State.writeLogic_irqSource (s : State) (f : Bool) (i : Reg) (r : Word) :
    (s.writeLogic f i r).irqSource = s.irqSource := by
  cases f <;> rfl
@[simp] theorem State.writeLogic_mem (s : State) (f : Bool) (i : Reg) (r : Word) :
    (s.writeLogic f i r).mem = s.mem := by
  cases f <;> rfl
@[simp] theorem State.writeLogic_params (s : State) (f : Bool) (i : Reg) (r : Word) :
    (s.writeLogic f i r).params = s.params := by
  cases f <;> rfl
@[simp] theorem State.writeLogic_draws (s : State) (f : Bool) (i : Reg) (r : Word) :
    (s.writeLogic f i r).draws = s.draws := by
  cases f <;> rfl

/-! The written-out ends of an instruction, in the model's own operations -/

theorem completed_eq_retire (t : State) : completed t = t.retire := rfl

theorem transferred_eq_jump (t : State) (target : Word) : transferred t target = t.jump target := rfl

theorem atNextBoundary_eq_sampleIrq (t : State) : atNextBoundary t = t.sampleIrq := rfl

end Sys2Proof.Machine
end

