-- ==== Sys2Proof/Laws/Ops.lean ====
section
/-! SUPPORT. Laws/Ops.lean: for each shared operation, once, everything it can do. -/

namespace Sys2Proof.Machine

/-! General registers -/

/-- Reading a register after a write: the value written, or what was there (R14, R32). -/
theorem Regs.read_write (g : Regs) (i j : Reg) (v : Word) :
    (g.write i v).read j = if j = i then v else g.read j := by
  cases i <;> cases j <;> rfl

@[simp] theorem Regs.read_write_self (g : Regs) (i : Reg) (v : Word) : (g.write i v).read i = v := by
  rw [Regs.read_write, if_pos rfl]

theorem Regs.read_write_of_ne (g : Regs) {i j : Reg} (v : Word) (h : j ≠ i) : (g.write i v).read j = g.read j := by
  rw [Regs.read_write, if_neg h]

/-- Register files that read alike are equal. -/
theorem Regs.ext_read {g g' : Regs} (h : ∀ i, g.read i = g'.read i) : g = g' := by
  cases g; cases g'
  simp only [Regs.mk.injEq]
  exact ⟨h .r0, h .r1, h .r2, h .r3, h .r4, h .r5, h .r6, h .r7, h .r8, h .r9, h .r10, h .r11, h .r12, h .lr, h .fp,
    h .sp⟩

/-! Special-purpose registers -/

/-- The read of `flags` is its four bits, in a number (R42, R47). -/
theorem Flags.toWord_toNat (f : Flags) :
    f.toWord.toNat = f.z.toNat + 2 * f.c.toNat + 4 * f.v.toNat + 8 * f.n.toNat := by
  rcases f with ⟨z, c, v, n⟩
  cases z <;> cases c <;> cases v <;> cases n <;> rfl

@[simp] theorem Flags.ofWord_toWord (f : Flags) : Flags.ofWord f.toWord = f := by
  rcases f with ⟨z, c, v, n⟩
  cases z <;> cases c <;> cases v <;> cases n <;> rfl

@[simp] theorem SReg.ofField_field (k : SReg) : SReg.ofField k.field = some k := by cases k <;> rfl

theorem withSReg_field (k : SReg) (f : SReg → Result) : withSReg k.field f = f k := by
  rw [withSReg, SReg.ofField_field]

/-- The special-purpose registers but the one written read as before (R48). -/
theorem State.readS_writeS_of_ne (s : State) {k j : SReg} (v : Word) (h : j ≠ k) :
    (s.writeS k v).readS j = s.readS j := by
  cases k <;> cases j <;> first | rfl | exact absurd rfl h

/-! Memory -/

theorem Memory.read_write (m : Memory) (a b : Nat) (v : Byte) :
    (m.write a v).read b = if b = a then some v else m.read b := by
  induction m with
  | nil =>
    by_cases h : b = a
    · rw [if_pos h]; exact if_pos h.symm
    · rw [if_neg h]; exact if_neg (Ne.symm h)
  | cons p m ih =>
    obtain ⟨k, x⟩ := p
    by_cases h : b = a
    · subst h
      rw [if_pos rfl, Memory.write]
      by_cases h1 : b < k
      · rw [if_pos h1]; exact if_pos rfl
      · by_cases h2 : b = k
        · rw [if_neg h1, if_pos h2]; exact if_pos rfl
        · rw [if_neg h1, if_neg h2, Memory.read, if_neg (Ne.symm h2), ih, if_pos rfl]
    · rw [if_neg h, Memory.write]
      by_cases h1 : a < k
      · rw [if_pos h1]; exact if_neg (Ne.symm h)
      · by_cases h2 : a = k
        · subst h2
          rw [if_neg h1, if_pos rfl, Memory.read, Memory.read, if_neg (Ne.symm h), if_neg (Ne.symm h)]
        · rw [if_neg h1, if_neg h2, Memory.read, Memory.read, ih, if_neg h]

theorem Memory.mem_write {m : Memory} {a : Nat} {v : Byte} {p : Host.Cell} (h : p ∈ m.write a v) :
    p = (a, v) ∨ p ∈ m := by
  induction m with
  | nil => simpa [Memory.write] using h
  | cons q m ih =>
    obtain ⟨k, x⟩ := q
    simp only [Memory.write] at h
    split at h
    · simpa using h
    · split at h
      · rcases List.mem_cons.mp h with h | h
        · exact .inl h
        · exact .inr (List.mem_cons_of_mem _ h)
      · rcases List.mem_cons.mp h with h | h
        · exact .inr (h ▸ List.mem_cons_self)
        · exact (ih h).imp id (List.mem_cons_of_mem _)

/-- A write keeps the canonical form. -/
theorem Memory.wf_write {m : Memory} (h : m.wf) {a : Nat} (ha : a < 2 ^ 32) (v : Byte) : (m.write a v).wf := by
  refine ⟨?_, fun p hp => (Memory.mem_write hp).elim (fun e => e ▸ ha) (h.2 p)⟩
  obtain ⟨h, -⟩ := h
  induction m with
  | nil => simp [Memory.write]
  | cons q m ih =>
    obtain ⟨k, x⟩ := q
    obtain ⟨hq, hm⟩ := List.pairwise_cons.mp h
    simp only [Memory.write]
    split
    · next hlt =>
      refine List.pairwise_cons.mpr ⟨fun p hp => ?_, h⟩
      rcases List.mem_cons.mp hp with rfl | hp
      · exact hlt
      · exact Nat.lt_trans hlt (hq p hp)
    · split
      · next _ he => subst he; exact List.pairwise_cons.mpr ⟨hq, hm⟩
      · next hlt hne =>
        refine List.pairwise_cons.mpr ⟨fun p hp => ?_, ih hm⟩
        rcases Memory.mem_write hp with rfl | hp
        · exact Nat.lt_of_le_of_ne (Nat.not_lt.mp hlt) (Ne.symm hne)
        · exact hq p hp

/-- Writing bytes keeps the canonical form. -/
theorem Memory.wf_writeBytes {m : Memory} (h : m.wf) (a : Word) (bs : List Byte) : (m.writeBytes a bs).wf := by
  induction bs generalizing m a with
  | nil => exact h
  | cons b bs ih => exact ih (Memory.wf_write h a.isLt b) _

/-- A listed cell after a write of bytes was listed before, or lies at one of the addresses written. -/
theorem Memory.mem_writeBytes {m : Memory} {a : Word} {bs : List Byte} {p : Host.Cell} (h : p ∈ m.writeBytes a bs) :
    p ∈ m ∨ ∃ k, k < bs.length ∧ p.1 = (a + BitVec.ofNat 32 k).toNat := by
  induction bs generalizing m a with
  | nil => exact .inl h
  | cons b bs ih =>
    rcases ih h with h | ⟨k, hk, e⟩
    · rcases Memory.mem_write h with rfl | h
      · exact .inr ⟨0, by simp, by simp⟩
      · exact .inl h
    · refine .inr ⟨k + 1, by simpa using hk, ?_⟩
      rw [e]
      congr 1
      rw [BitVec.add_assoc]
      congr 1
      apply BitVec.eq_of_toNat_eq
      simp [Nat.add_comm]

/-- A byte outside the ones written reads as before. -/
theorem Memory.read_writeBytes_of_outside {m : Memory} {a b : Word} {bs : List Byte}
    (h : outside a bs.length b) : (m.writeBytes a bs).read b.toNat = m.read b.toNat := by
  induction bs generalizing m a with
  | nil => rfl
  | cons x bs ih =>
    rw [Memory.writeBytes, ih, Memory.read_write, if_neg]
    · intro e
      exact h 0 (by simp) (by simpa using BitVec.eq_of_toNat_eq e)
    · intro k hk e
      refine h (k + 1) (by simpa using hk) (e.trans ?_)
      rw [BitVec.add_assoc]
      congr 1
      apply BitVec.eq_of_toNat_eq
      simp [Nat.add_comm]

/-- A byte among the ones written reads as written. -/
theorem Memory.read_writeBytes {m : Memory} {a : Word} {bs : List Byte} (hl : bs.length < 2 ^ 32) {k : Nat}
    (h : k < bs.length) : (m.writeBytes a bs).read (a + BitVec.ofNat 32 k).toNat = some bs[k] := by
  induction bs generalizing m a k with
  | nil => exact absurd h (Nat.not_lt_zero _)
  | cons x bs ih =>
    have hl' : bs.length < 2 ^ 32 := by simp at hl; omega
    cases k with
    | zero =>
      rw [Memory.writeBytes, Memory.read_writeBytes_of_outside, Memory.read_write]
      · simp
      · intro k hk e
        have := congrArg BitVec.toNat e
        simp only [BitVec.toNat_add, BitVec.toNat_ofNat] at this
        simp at hl
        omega
    | succ k =>
      have e : a + BitVec.ofNat 32 (k + 1) = a + 1#32 + BitVec.ofNat 32 k := by
        rw [BitVec.add_assoc]
        congr 1
        apply BitVec.eq_of_toNat_eq
        simp [Nat.add_comm]
      rw [e, Memory.writeBytes, ih hl' (by simpa using h)]
      rfl

/-- What a state backs depends on the memory map alone. -/
theorem State.backed_congr {s t : State} (h : t.params = s.params) (a : Word) : t.backed a = s.backed a := by
  simp only [State.backed, h]

/-- What a data access answers: nothing, where it is aligned and every byte is backed; else one of two faults. -/
theorem State.checkAccess_eq_ok {s : State} {a : Word} {n : Nat} :
    s.checkAccess a n = .ok () ↔ a.toNat % n = 0 ∧ s.backedAll a n = true := by
  unfold State.checkAccess
  split
  · simp_all
  · split <;> simp_all

/-- The bytes of an access are backed exactly where each is (R72). -/
theorem State.backedAll_iff {s : State} {a : Word} {n : Nat} :
    s.backedAll a n = true ↔ ∀ k, k < n → s.backed (a + BitVec.ofNat 32 k) = true := by
  simp [State.backedAll]

theorem State.checkAccess_ok {s : State} {a : Word} {n : Nat} (h : a.toNat % n = 0) (hb : s.backedAll a n = true) :
    s.checkAccess a n = .ok () := State.checkAccess_eq_ok.2 ⟨h, hb⟩

/-- What a read of one byte answers (R74). -/
theorem State.readByte_eq_ok {s : State} {a : Word} {b : Byte} :
    s.readByte a = .ok b ↔ s.backed a = true ∧ s.loadByte a = .ok b := by
  by_cases h : s.backed a = true <;>
    simp [State.readByte, State.checkAccess, State.backedAll, Nat.mod_one, bind, Except.bind, h]

/-- What a read of two bytes answers, once the access is in order (R74). -/
theorem State.readHalf_of {s : State} {a : Word} {b0 b1 : Byte} (h : a.toNat % 2 = 0) (hb : s.backedAll a 2 = true)
    (h0 : s.loadByte a = .ok b0) (h1 : s.loadByte (a + 1#32) = .ok b1) : s.readHalf a = .ok (b0 ++ b1) := by
  unfold State.readHalf
  rw [State.checkAccess_ok h hb, h0, h1]
  rfl

/-- What a read of four bytes answers, once the access is in order (R74). -/
theorem State.readWord_of {s : State} {a : Word} {b0 b1 b2 b3 : Byte} (h : a.toNat % 4 = 0)
    (hb : s.backedAll a 4 = true) (h0 : s.loadByte a = .ok b0) (h1 : s.loadByte (a + 1#32) = .ok b1)
    (h2 : s.loadByte (a + 2#32) = .ok b2) (h3 : s.loadByte (a + 3#32) = .ok b3) :
    s.readWord a = .ok (b0 ++ b1 ++ b2 ++ b3) := by
  unfold State.readWord
  rw [State.checkAccess_ok h hb, h0, h1, h2, h3]
  rfl

/-- A stored byte is loaded again. -/
theorem State.loadByte_storeBytes {s : State} {a : Word} {bs : List Byte} (hl : bs.length < 2 ^ 32) {k : Nat}
    (h : k < bs.length) : (s.storeBytes a bs).loadByte (a + BitVec.ofNat 32 k) = .ok bs[k] := by
  unfold State.loadByte
  rw [State.storeBytes_mem, Memory.read_writeBytes hl h]

theorem State.storeBytes_backedAll (s : State) (a : Word) (bs : List Byte) (b : Word) (n : Nat) :
    (s.storeBytes a bs).backedAll b n = s.backedAll b n := rfl

/-- What the fetch of a halfword answers, once its two bytes can be read (R78). -/
theorem State.fetchHalf_of {s : State} {a : Word} {b0 b1 : Byte} (h : a.toNat % 2 = 0) (h0 : s.readByte a = .ok b0)
    (h1 : s.readByte (a + 1#32) = .ok b1) : s.fetchHalf a = .ok (b0, b1) := by
  obtain ⟨hb0, h0⟩ := State.readByte_eq_ok.1 h0
  obtain ⟨hb1, h1⟩ := State.readByte_eq_ok.1 h1
  have hb : s.backedAll a 2 = true := by simp [State.backedAll, List.range_succ, hb0, hb1]
  unfold State.fetchHalf
  rw [h0, h1, hb, h]
  rfl

/-- A byte read depends on the memory's byte there and on the memory map. -/
theorem State.readByte_congr {s t : State} {a : Word} (hp : t.params = s.params)
    (hm : t.mem.read a.toNat = s.mem.read a.toNat) : t.readByte a = s.readByte a := by
  have hb : ∀ x, t.backed x = s.backed x := State.backed_congr hp
  simp only [State.readByte, State.checkAccess, State.backedAll, State.loadByte, hb, hm]
  rfl

/-- What a word store answers: the state with its four bytes stored, and only where the access is in order. -/
theorem State.writeWord_eq_ok {s t : State} {a v : Word} :
    s.writeWord a v = .ok t ↔ s.checkAccess a 4 = .ok () ∧ t = s.storeBytes a (wordBytes v) := by
  unfold State.writeWord
  cases s.checkAccess a 4 <;> simp [bind, Except.bind, pure, Except.pure, eq_comm]

theorem State.writeHalf_eq_ok {s t : State} {a : Word} {v : Halfword} :
    s.writeHalf a v = .ok t ↔ s.checkAccess a 2 = .ok () ∧ t = s.storeBytes a (halfBytes v) := by
  unfold State.writeHalf
  cases s.checkAccess a 2 <;> simp [bind, Except.bind, pure, Except.pure, eq_comm]

theorem State.writeByte_eq_ok {s t : State} {a : Word} {v : Byte} :
    s.writeByte a v = .ok t ↔ s.checkAccess a 1 = .ok () ∧ t = s.storeBytes a [v] := by
  unfold State.writeByte
  cases s.checkAccess a 1 <;> simp [bind, Except.bind, pure, Except.pure, eq_comm]

/-- What a push answers (R261). -/
theorem State.pushWord_eq_ok {s t : State} {rB : Reg} {v : Word} :
    s.pushWord rB v = .ok t ↔
      s.checkAccess (s.reg rB) 4 = .ok () ∧
        t = (s.storeBytes (s.reg rB) (wordBytes v)).setReg rB (s.reg rB - 4#32) := by
  unfold State.pushWord State.writeWord
  cases s.checkAccess (s.reg rB) 4 <;> simp [bind, Except.bind, pure, Except.pure, eq_comm]

/-- What a pop answers (R261). -/
theorem State.popWord_eq_ok {s t : State} {rB : Reg} {v : Word} :
    s.popWord rB = .ok (v, t) ↔
      s.readWord (s.reg rB + 4#32) = .ok v ∧ t = s.setReg rB (s.reg rB + 4#32) := by
  unfold State.popWord
  cases s.readWord (s.reg rB + 4#32) <;> simp [bind, Except.bind, pure, Except.pure, eq_comm]

/-- What going on with a value answers. -/
theorem attempt_eq_next {α : Type} {x : Except Fault α} {k : α → Result} {t : State} :
    attempt x k = .next t ↔ ∃ v, x = .ok v ∧ k v = .next t := by
  cases x <;> simp [attempt]

theorem withSReg_eq_next {k : SField} {f : SReg → Result} {t : State} :
    withSReg k f = .next t ↔ ∃ r, SReg.ofField k = some r ∧ f r = .next t := by
  unfold withSReg
  cases SReg.ofField k <;> simp

theorem sampled_eq_next {r : Result} {t : State} : sampled r = .next t ↔ ∃ u, r = .next u ∧ t = u.sampleIrq := by
  cases r <;> simp [sampled, eq_comm]

/-- Everything a step that goes on can do (R17): take an IRQ, or run the instruction it fetches. -/
theorem step_eq_next {s t : State} :
    step s = .next t ↔
      (s.irqAccepted = true ∧ t = s.irqEntry.sampleIrq) ∨
        (s.irqAccepted = false ∧ ∃ i u, s.fetchInstr = .ok i ∧ exec i s = .next u ∧ t = u.sampleIrq) := by
  unfold step
  cases h : s.irqAccepted
  · simp [attempt_eq_next, sampled_eq_next]
  · simp [sampled_eq_next]

end Sys2Proof.Machine
end

