-- ==== Sys2Proof/Laws/PerInstr.lean ====
section
/-! SUPPORT. Laws/PerInstr.lean: properties of the instruction as syntax, one lemma per constructor. -/

namespace Sys2Proof.Laws

/-- The length of R100: two halfwords for `lpre`, one for every other instruction. -/
def EncodeLength.Statement (i : Instr) : Prop := (encode i).length = if i matches .lpre _ then 2 else 1

theorem EncodeLength.pre (imm : BitVec 12) : EncodeLength.Statement (.pre imm) := rfl
theorem EncodeLength.lpre (imm : BitVec 27) : EncodeLength.Statement (.lpre imm) := rfl
theorem EncodeLength.addImm (rA : Reg) (imm : BitVec 5) : EncodeLength.Statement (.addImm rA imm) := rfl
theorem EncodeLength.addPcImm (rA : Reg) (imm : BitVec 5) : EncodeLength.Statement (.addPcImm rA imm) := rfl
theorem EncodeLength.addSpImm (rA : Reg) (imm : BitVec 5) : EncodeLength.Statement (.addSpImm rA imm) := rfl
theorem EncodeLength.addFpImm (rA : Reg) (imm : BitVec 5) : EncodeLength.Statement (.addFpImm rA imm) := rfl
theorem EncodeLength.cmpImm (rA : Reg) (imm : BitVec 5) : EncodeLength.Statement (.cmpImm rA imm) := rfl
theorem EncodeLength.cpyImm (rA : Reg) (imm : BitVec 5) : EncodeLength.Statement (.cpyImm rA imm) := rfl
theorem EncodeLength.lslImm (rA : Reg) (imm : BitVec 5) : EncodeLength.Statement (.lslImm rA imm) := rfl
theorem EncodeLength.lsrImm (rA : Reg) (imm : BitVec 5) : EncodeLength.Statement (.lsrImm rA imm) := rfl
theorem EncodeLength.asrImm (rA : Reg) (imm : BitVec 5) : EncodeLength.Statement (.asrImm rA imm) := rfl
theorem EncodeLength.andImm (rA : Reg) (imm : BitVec 5) : EncodeLength.Statement (.andImm rA imm) := rfl
theorem EncodeLength.orrImm (rA : Reg) (imm : BitVec 5) : EncodeLength.Statement (.orrImm rA imm) := rfl
theorem EncodeLength.xorImm (rA : Reg) (imm : BitVec 5) : EncodeLength.Statement (.xorImm rA imm) := rfl
theorem EncodeLength.zeImm (rA : Reg) (imm : BitVec 5) : EncodeLength.Statement (.zeImm rA imm) := rfl
theorem EncodeLength.seImm (rA : Reg) (imm : BitVec 5) : EncodeLength.Statement (.seImm rA imm) := rfl
theorem EncodeLength.swiRegImm (rA : Reg) (imm : BitVec 5) : EncodeLength.Statement (.swiRegImm rA imm) := rfl
theorem EncodeLength.swiImm (imm : BitVec 5) : EncodeLength.Statement (.swiImm imm) := rfl
theorem EncodeLength.add (rA rB : Reg) : EncodeLength.Statement (.add rA rB) := rfl
theorem EncodeLength.addF (rA rB : Reg) : EncodeLength.Statement (.addF rA rB) := rfl
theorem EncodeLength.sub (rA rB : Reg) : EncodeLength.Statement (.sub rA rB) := rfl
theorem EncodeLength.subF (rA rB : Reg) : EncodeLength.Statement (.subF rA rB) := rfl
theorem EncodeLength.addSp (rA rB : Reg) : EncodeLength.Statement (.addSp rA rB) := rfl
theorem EncodeLength.addSpF (rA rB : Reg) : EncodeLength.Statement (.addSpF rA rB) := rfl
theorem EncodeLength.addFp (rA rB : Reg) : EncodeLength.Statement (.addFp rA rB) := rfl
theorem EncodeLength.addFpF (rA rB : Reg) : EncodeLength.Statement (.addFpF rA rB) := rfl
theorem EncodeLength.cmp (rA rB : Reg) : EncodeLength.Statement (.cmp rA rB) := rfl
theorem EncodeLength.cpy (rA rB : Reg) : EncodeLength.Statement (.cpy rA rB) := rfl
theorem EncodeLength.cpyF (rA rB : Reg) : EncodeLength.Statement (.cpyF rA rB) := rfl
theorem EncodeLength.lsl (rA rB : Reg) : EncodeLength.Statement (.lsl rA rB) := rfl
theorem EncodeLength.lslF (rA rB : Reg) : EncodeLength.Statement (.lslF rA rB) := rfl
theorem EncodeLength.lsr (rA rB : Reg) : EncodeLength.Statement (.lsr rA rB) := rfl
theorem EncodeLength.lsrF (rA rB : Reg) : EncodeLength.Statement (.lsrF rA rB) := rfl
theorem EncodeLength.asr (rA rB : Reg) : EncodeLength.Statement (.asr rA rB) := rfl
theorem EncodeLength.asrF (rA rB : Reg) : EncodeLength.Statement (.asrF rA rB) := rfl
theorem EncodeLength.and (rA rB : Reg) : EncodeLength.Statement (.and rA rB) := rfl
theorem EncodeLength.andF (rA rB : Reg) : EncodeLength.Statement (.andF rA rB) := rfl
theorem EncodeLength.orr (rA rB : Reg) : EncodeLength.Statement (.orr rA rB) := rfl
theorem EncodeLength.orrF (rA rB : Reg) : EncodeLength.Statement (.orrF rA rB) := rfl
theorem EncodeLength.xor (rA rB : Reg) : EncodeLength.Statement (.xor rA rB) := rfl
theorem EncodeLength.xorF (rA rB : Reg) : EncodeLength.Statement (.xorF rA rB) := rfl
theorem EncodeLength.adc (rA rB : Reg) : EncodeLength.Statement (.adc rA rB) := rfl
theorem EncodeLength.adcF (rA rB : Reg) : EncodeLength.Statement (.adcF rA rB) := rfl
theorem EncodeLength.sbc (rA rB : Reg) : EncodeLength.Statement (.sbc rA rB) := rfl
theorem EncodeLength.sbcF (rA rB : Reg) : EncodeLength.Statement (.sbcF rA rB) := rfl
theorem EncodeLength.bl (imm : BitVec 9) : EncodeLength.Statement (.bl imm) := rfl
theorem EncodeLength.bra (imm : BitVec 9) : EncodeLength.Statement (.bra imm) := rfl
theorem EncodeLength.beq (imm : BitVec 9) : EncodeLength.Statement (.beq imm) := rfl
theorem EncodeLength.bne (imm : BitVec 9) : EncodeLength.Statement (.bne imm) := rfl
theorem EncodeLength.bmi (imm : BitVec 9) : EncodeLength.Statement (.bmi imm) := rfl
theorem EncodeLength.bpl (imm : BitVec 9) : EncodeLength.Statement (.bpl imm) := rfl
theorem EncodeLength.bvs (imm : BitVec 9) : EncodeLength.Statement (.bvs imm) := rfl
theorem EncodeLength.bvc (imm : BitVec 9) : EncodeLength.Statement (.bvc imm) := rfl
theorem EncodeLength.bgeu (imm : BitVec 9) : EncodeLength.Statement (.bgeu imm) := rfl
theorem EncodeLength.bltu (imm : BitVec 9) : EncodeLength.Statement (.bltu imm) := rfl
theorem EncodeLength.bgtu (imm : BitVec 9) : EncodeLength.Statement (.bgtu imm) := rfl
theorem EncodeLength.bleu (imm : BitVec 9) : EncodeLength.Statement (.bleu imm) := rfl
theorem EncodeLength.bges (imm : BitVec 9) : EncodeLength.Statement (.bges imm) := rfl
theorem EncodeLength.blts (imm : BitVec 9) : EncodeLength.Statement (.blts imm) := rfl
theorem EncodeLength.bgts (imm : BitVec 9) : EncodeLength.Statement (.bgts imm) := rfl
theorem EncodeLength.bles (imm : BitVec 9) : EncodeLength.Statement (.bles imm) := rfl
theorem EncodeLength.jl (rA : Reg) : EncodeLength.Statement (.jl rA) := rfl
theorem EncodeLength.jmp (rA : Reg) : EncodeLength.Statement (.jmp rA) := rfl
theorem EncodeLength.jmpIra : EncodeLength.Statement .jmpIra := rfl
theorem EncodeLength.reti : EncodeLength.Statement .reti := rfl
theorem EncodeLength.cpyFromS (rA : Reg) (sC : SField) : EncodeLength.Statement (.cpyFromS rA sC) := rfl
theorem EncodeLength.cpyToS (sA : SField) (rB : Reg) : EncodeLength.Statement (.cpyToS sA rB) := rfl
theorem EncodeLength.cpySS (sA sB : SField) : EncodeLength.Statement (.cpySS sA sB) := rfl
theorem EncodeLength.index (rA : Reg) : EncodeLength.Statement (.index rA) := rfl
theorem EncodeLength.ei : EncodeLength.Statement .ei := rfl
theorem EncodeLength.di : EncodeLength.Statement .di := rfl
theorem EncodeLength.push (rA rB : Reg) : EncodeLength.Statement (.push rA rB) := rfl
theorem EncodeLength.pop (rA rB : Reg) : EncodeLength.Statement (.pop rA rB) := rfl
theorem EncodeLength.pushS (sA : SField) (rB : Reg) : EncodeLength.Statement (.pushS sA rB) := rfl
theorem EncodeLength.popS (sA : SField) (rB : Reg) : EncodeLength.Statement (.popS sA rB) := rfl
theorem EncodeLength.mul (rA rB : Reg) : EncodeLength.Statement (.mul rA rB) := rfl
theorem EncodeLength.udiv (rA rB : Reg) : EncodeLength.Statement (.udiv rA rB) := rfl
theorem EncodeLength.sdiv (rA rB : Reg) : EncodeLength.Statement (.sdiv rA rB) := rfl
theorem EncodeLength.umod (rA rB : Reg) : EncodeLength.Statement (.umod rA rB) := rfl
theorem EncodeLength.smod (rA rB : Reg) : EncodeLength.Statement (.smod rA rB) := rfl
theorem EncodeLength.lumul (rA rB : Reg) : EncodeLength.Statement (.lumul rA rB) := rfl
theorem EncodeLength.lsmul (rA rB : Reg) : EncodeLength.Statement (.lsmul rA rB) := rfl
theorem EncodeLength.ludiv (rA rB : Reg) : EncodeLength.Statement (.ludiv rA rB) := rfl
theorem EncodeLength.lsdiv (rA rB : Reg) : EncodeLength.Statement (.lsdiv rA rB) := rfl
theorem EncodeLength.lumod (rA rB : Reg) : EncodeLength.Statement (.lumod rA rB) := rfl
theorem EncodeLength.lsmod (rA rB : Reg) : EncodeLength.Statement (.lsmod rA rB) := rfl
theorem EncodeLength.ldub (rA rB : Reg) : EncodeLength.Statement (.ldub rA rB) := rfl
theorem EncodeLength.ldsb (rA rB : Reg) : EncodeLength.Statement (.ldsb rA rB) := rfl
theorem EncodeLength.lduh (rA rB : Reg) : EncodeLength.Statement (.lduh rA rB) := rfl
theorem EncodeLength.ldsh (rA rB : Reg) : EncodeLength.Statement (.ldsh rA rB) := rfl
theorem EncodeLength.stb (rA rB : Reg) : EncodeLength.Statement (.stb rA rB) := rfl
theorem EncodeLength.sth (rA rB : Reg) : EncodeLength.Statement (.sth rA rB) := rfl
theorem EncodeLength.ldr (rA rB : Reg) (imm : BitVec 5) : EncodeLength.Statement (.ldr rA rB imm) := rfl
theorem EncodeLength.str (rA rB : Reg) (imm : BitVec 5) : EncodeLength.Statement (.str rA rB imm) := rfl
theorem EncodeLength.cmpb (rA rB : Reg) : EncodeLength.Statement (.cmpb rA rB) := rfl
theorem EncodeLength.cmph (rA rB : Reg) : EncodeLength.Statement (.cmph rA rB) := rfl
theorem EncodeLength.lsrb (rA rB : Reg) : EncodeLength.Statement (.lsrb rA rB) := rfl
theorem EncodeLength.lsrh (rA rB : Reg) : EncodeLength.Statement (.lsrh rA rB) := rfl
theorem EncodeLength.asrb (rA rB : Reg) : EncodeLength.Statement (.asrb rA rB) := rfl
theorem EncodeLength.asrh (rA rB : Reg) : EncodeLength.Statement (.asrh rA rB) := rfl

end Sys2Proof.Laws
end

