-- ==== Sys2Proof/Tests/Slice0.lean ====
section
/-! SUPPORT. Tests/Slice0.lean: what WellFormed refuses; a word of every instruction, written out from the spec's
patterns; single steps, whose results come from 95_test_vectors.md (a theorem's number is the vector's) or are worked
out by hand from the rules; and, for every statement that has hypotheses, a state and operands that meet them. -/

namespace Sys2Proof.Tests

open Sys2Proof.Machine

/-! What WellFormed refuses: a special-purpose register field of 0x8 to 0xf (R49), in each instruction and field that
has one; 0x7 is the last it admits. -/

theorem test_wellFormed_cpyFromS :
    (Instr.cpyFromS .r1 0x8#4).wellFormed = false ∧ (Instr.cpyFromS .r1 0x7#4).wellFormed = true := by decide
theorem test_wellFormed_cpyToS :
    (Instr.cpyToS 0x8#4 .r1).wellFormed = false ∧ (Instr.cpyToS 0x7#4 .r1).wellFormed = true := by decide
theorem test_wellFormed_cpySS_first :
    (Instr.cpySS 0x8#4 0x7#4).wellFormed = false ∧ (Instr.cpySS 0x7#4 0x7#4).wellFormed = true := by decide
theorem test_wellFormed_cpySS_second : (Instr.cpySS 0x7#4 0xF#4).wellFormed = false := by decide
theorem test_wellFormed_pushS :
    (Instr.pushS 0x8#4 .sp).wellFormed = false ∧ (Instr.pushS 0x7#4 .sp).wellFormed = true := by decide
theorem test_wellFormed_popS :
    (Instr.popS 0xF#4 .sp).wellFormed = false ∧ (Instr.popS 0x7#4 .sp).wellFormed = true := by decide

/-! Decoding -/

/-- The halfword decodes to the instruction and nothing is left. -/
def decodes (h : Halfword) (i : Instr) : Bool := decide (decode (halfBytes h) = .ok (i, []))

/-- `0000 iiii iiii iiii` (R103): each word written from the spec's pattern. -/
theorem test_decode_group0 : ∀ p ∈ ([
    (0b0000_100101011100#16, .pre 0x95C#12)] :
    List (Halfword × Instr)), decodes p.1 p.2 = true := by decide

/-- `001i iiii oooo aaaa` (R105): each word written from the spec's pattern. -/
theorem test_decode_group1 : ∀ p ∈ ([
    (0b001_11110_0000_1011#16, .addImm .r11 0x1E#5),
    (0b001_11111_0001_0000#16, .addPcImm .r0 0x1F#5),
    (0b001_00000_0010_0101#16, .addSpImm .r5 0x0#5),
    (0b001_00001_0011_1010#16, .addFpImm .r10 0x1#5),
    (0b001_00010_0100_1111#16, .cmpImm .sp 0x2#5),
    (0b001_00011_0101_0100#16, .cpyImm .r4 0x3#5),
    (0b001_00100_0110_1001#16, .lslImm .r9 0x4#5),
    (0b001_00101_0111_1110#16, .lsrImm .fp 0x5#5),
    (0b001_00110_1000_0011#16, .asrImm .r3 0x6#5),
    (0b001_00111_1001_1000#16, .andImm .r8 0x7#5),
    (0b001_01000_1010_1101#16, .orrImm .lr 0x8#5),
    (0b001_01001_1011_0010#16, .xorImm .r2 0x9#5),
    (0b001_01010_1100_0111#16, .zeImm .r7 0xA#5),
    (0b001_01011_1101_1100#16, .seImm .r12 0xB#5),
    (0b001_01100_1110_0001#16, .swiRegImm .r1 0xC#5),
    (0b001_01101_1111_1011#16, .swiImm 0xD#5)] :
    List (Halfword × Instr)), decodes p.1 p.2 = true := by decide

/-- `010f oooo bbbb aaaa` (R106): each word written from the spec's pattern. -/
theorem test_decode_group2a : ∀ p ∈ ([
    (0b01000000_1000_1011#16, .add .r11 .r8),
    (0b01010000_1111_0000#16, .addF .r0 .sp),
    (0b01000001_0110_0101#16, .sub .r5 .r6),
    (0b01010001_1101_1010#16, .subF .r10 .lr),
    (0b01000010_0100_1111#16, .addSp .sp .r4),
    (0b01010010_1011_0100#16, .addSpF .r4 .r11),
    (0b01000011_0010_1001#16, .addFp .r9 .r2),
    (0b01010011_1001_1110#16, .addFpF .fp .r9),
    (0b010_1_0100_0000_0011#16, .cmp .r3 .r0),
    (0b01000101_0111_1000#16, .cpy .r8 .r7),
    (0b01010101_1110_1101#16, .cpyF .lr .fp),
    (0b01000110_0101_0010#16, .lsl .r2 .r5),
    (0b01010110_1100_0111#16, .lslF .r7 .r12),
    (0b01000111_0011_1100#16, .lsr .r12 .r3),
    (0b01010111_1010_0001#16, .lsrF .r1 .r10),
    (0b01001000_0001_0110#16, .asr .r6 .r1)] :
    List (Halfword × Instr)), decodes p.1 p.2 = true := by decide

/-- `010f oooo bbbb aaaa` (R106): each word written from the spec's pattern. -/
theorem test_decode_group2b : ∀ p ∈ ([
    (0b01011000_1000_1011#16, .asrF .r11 .r8),
    (0b01001001_1111_0000#16, .and .r0 .sp),
    (0b01011001_0110_0101#16, .andF .r5 .r6),
    (0b01001010_1101_1010#16, .orr .r10 .lr),
    (0b01011010_0100_1111#16, .orrF .sp .r4),
    (0b01001011_1011_0100#16, .xor .r4 .r11),
    (0b01011011_0010_1001#16, .xorF .r9 .r2),
    (0b01001100_1001_1110#16, .adc .fp .r9),
    (0b01011100_0000_0011#16, .adcF .r3 .r0),
    (0b01001101_0111_1000#16, .sbc .r8 .r7),
    (0b01011101_1110_1101#16, .sbcF .lr .fp)] :
    List (Halfword × Instr)), decodes p.1 p.2 = true := by decide

/-- `011i iiii iiii oooo` (R107): each word written from the spec's pattern. -/
theorem test_decode_group3 : ∀ p ∈ ([
    (0b011_100001001_0000#16, .bl 0x109#9),
    (0b011_010001010_0001#16, .bra 0x8A#9),
    (0b011_000001011_0010#16, .beq 0xB#9),
    (0b011_110001100_0011#16, .bne 0x18C#9),
    (0b011_100001101_0100#16, .bmi 0x10D#9),
    (0b011_010001110_0101#16, .bpl 0x8E#9),
    (0b011_000001111_0110#16, .bvs 0xF#9),
    (0b011_110010000_0111#16, .bvc 0x190#9),
    (0b011_100010001_1000#16, .bgeu 0x111#9),
    (0b011_010010010_1001#16, .bltu 0x92#9),
    (0b011_000010011_1010#16, .bgtu 0x13#9),
    (0b011_110010100_1011#16, .bleu 0x194#9),
    (0b011_100010101_1100#16, .bges 0x115#9),
    (0b011_010010110_1101#16, .blts 0x96#9),
    (0b011_000010111_1110#16, .bgts 0x17#9),
    (0b011_110011000_1111#16, .bles 0x198#9)] :
    List (Halfword × Instr)), decodes p.1 p.2 = true := by decide

/-- `100o oooo bbbb aaaa` (R108, R118); unused fields hold ones: each word written from the spec's pattern. -/
theorem test_decode_group4a : ∀ p ∈ ([
    (0b10000000_1011_0010#16, .jl .r2),
    (0b10000001_1011_0111#16, .jmp .r7),
    (0b10000010_00001011#16, .jmpIra),
    (0b10000011_00001011#16, .reti),
    (0b10000100_0111_0110#16, .cpyFromS .r6 0x7#4),
    (0b10000101_1000_0011#16, .cpyToS 0x3#4 .r8),
    (0b10000110_0001_0110#16, .cpySS 0x6#4 0x1#4),
    (0b10000111_1011_0101#16, .index .r5),
    (0b10001000_00001011#16, .ei),
    (0b10001001_00001011#16, .di),
    (0b10001010_1011_0100#16, .push .r4 .r11),
    (0b10001011_0010_1001#16, .pop .r9 .r2),
    (0b10001100_1001_0000#16, .pushS 0x0#4 .r9),
    (0b10001101_0000_0011#16, .popS 0x3#4 .r0),
    (0b10001110_0111_1000#16, .mul .r8 .r7),
    (0b10001111_1110_1101#16, .udiv .lr .fp)] :
    List (Halfword × Instr)), decodes p.1 p.2 = true := by decide

/-- `100o oooo bbbb aaaa` (R108, R118); unused fields hold ones: each word written from the spec's pattern. -/
theorem test_decode_group4b : ∀ p ∈ ([
    (0b10010000_0101_0010#16, .sdiv .r2 .r5),
    (0b10010001_1100_0111#16, .umod .r7 .r12),
    (0b10010010_0011_1100#16, .smod .r12 .r3),
    (0b10010011_1010_0001#16, .lumul .r1 .r10),
    (0b10010100_0001_0110#16, .lsmul .r6 .r1),
    (0b10010101_1000_1011#16, .ludiv .r11 .r8),
    (0b10010110_1111_0000#16, .lsdiv .r0 .sp),
    (0b10010111_0110_0101#16, .lumod .r5 .r6),
    (0b10011000_1101_1010#16, .lsmod .r10 .lr),
    (0b10011001_0100_1111#16, .ldub .sp .r4),
    (0b10011010_1011_0100#16, .ldsb .r4 .r11),
    (0b10011011_0010_1001#16, .lduh .r9 .r2),
    (0b10011100_1001_1110#16, .ldsh .fp .r9),
    (0b10011101_0000_0011#16, .stb .r3 .r0),
    (0b10011110_0111_1000#16, .sth .r8 .r7)] :
    List (Halfword × Instr)), decodes p.1 p.2 = true := by decide

/-- `101i iiii bbbb aaaa`, `110i iiii bbbb aaaa` (R109): each word written from the spec's pattern. -/
theorem test_decode_group5and6 : ∀ p ∈ ([
    (0b101_11000_1110_1101#16, .ldr .lr .fp 0x18#5),
    (0b110_11001_0101_0010#16, .str .r2 .r5 0x19#5)] :
    List (Halfword × Instr)), decodes p.1 p.2 = true := by decide

/-- `1110 0woo bbbb aaaa` (R110): each word written from the spec's pattern. -/
theorem test_decode_group7 : ∀ p ∈ ([
    (0b11100000_1100_0111#16, .cmpb .r7 .r12),
    (0b11100100_0011_1100#16, .cmph .r12 .r3),
    (0b11100001_1010_0001#16, .lsrb .r1 .r10),
    (0b11100101_0001_0110#16, .lsrh .r6 .r1),
    (0b11100010_1000_1011#16, .asrb .r11 .r8),
    (0b11100110_1111_0000#16, .asrh .r0 .sp)] :
    List (Halfword × Instr)), decodes p.1 p.2 = true := by decide

/-- `0001 0iii iiii iiii iiii iiii iiii iiii`, the halfword of bits 31:16 first (R104). -/
theorem test_decode_lpre :
    decode (halfBytes 0b00010_10110100111#16 ++ halfBytes 0b0101001011011101#16) = .ok (.lpre 0x5A752DD#27, []) := by decide

/-! Single steps -/

/-- The machine after reset with `pc` at `a` and one halfword there. -/
def machine (a : Word) (h : Halfword) : State :=
  { State.reset with pc := a, mem := Memory.writeBytes [] a (halfBytes h) }

/-- The interrupt-request input raised. -/
def withIrq (s : State) : State := { s with irqPending := true }

/-- The answer is that fault. -/
def stops (r : Result) (f : Fault) : Bool :=
  match r with
  | .next _ => false
  | .fault g => decide (g = f)
  | .refused _ => false

/-- The answer is a next state, and it passes the check. -/
def answers (r : Result) (p : State → Bool) : Bool :=
  match r with
  | .next t => p t
  | .fault _ => false
  | .refused _ => false

theorem test_V15 :
    answers (step (machine 0x100#32 0x0ABC#16))
      (fun t => t.pc == 0x102#32 && t.preHave) = true := by decide
theorem test_V17 : stops (step (machine 0x100#32 0x1800#16)) .reservedInstruction = true := by decide
theorem test_V22 :
    answers (step ((machine 0x100#32 0x3F71#16).setReg .r1 0xFFFFFFFF#32))
      (fun t => t.reg .r1 == 0x0#32 && t.pc == 0x102#32) = true := by decide
theorem test_V23 :
    answers (step ((machine 0x100#32 0x2061#16).setReg .r1 0x80000001#32))
      (fun t => t.reg .r1 == 0x80000001#32 && t.pc == 0x102#32) = true := by decide
theorem test_V24 :
    answers (step ((machine 0x100#32 0x20C1#16).setReg .r1 0xFFFFFFFF#32))
      (fun t => t.reg .r1 == 0x0#32 && t.pc == 0x102#32) = true := by decide
theorem test_V25 :
    answers (step ((machine 0x100#32 0x3FC1#16).setReg .r1 0xFFFFFFFF#32))
      (fun t => t.reg .r1 == 0xFFFFFFFF#32 && t.pc == 0x102#32) = true := by decide
theorem test_V26 :
    answers (step ((machine 0x100#32 0x20D1#16).setReg .r1 0x1#32))
      (fun t => t.reg .r1 == 0xFFFFFFFF#32 && t.pc == 0x102#32) = true := by decide
theorem test_V28 :
    answers (step (((machine 0x100#32 0x3F41#16).setReg .r1 0x0#32).writeS .flags 0xF#32))
      (fun t => t.readS .flags == 0x0#32 && t.pc == 0x102#32) = true := by decide
theorem test_V29 :
    answers (step ((machine 0x100#32 0x2141#16).setReg .r1 0x80000000#32))
      (fun t => t.readS .flags == 0x6#32 && t.pc == 0x102#32) = true := by decide
theorem test_V30 :
    answers (step (machine 0x100#32 0x3011#16))
      (fun t => t.reg .r1 == 0xF2#32 && t.pc == 0x102#32) = true := by decide
theorem test_V32 :
    answers (step ((machine 0x100#32 0x3091#16).setReg .r1 0x12345678#32))
      (fun t => t.reg .r1 == 0x12345670#32 && t.pc == 0x102#32) = true := by decide
theorem test_V33 :
    answers (step (((machine 0x100#32 0x2F01#16).setReg .r1 0xFFFFFFF8#32).writeS .flags 0x5#32))
      (fun t => t.reg .r1 == 0x7#32 && t.readS .flags == 0x5#32 && t.pc == 0x102#32) = true := by decide
theorem test_V34 :
    answers (step (((machine 0x100#32 0x3FF0#16).writeS .ids 0x1000#32).writeS .ie 0x1#32))
      (fun t => t.readS .ira == 0x102#32 && t.readS .ie == 0x0#32 && t.readS .ity == 0x1#32 && t.readS .sty == 0xFFFFFFFF#32 && t.pc == 0x1000#32) = true := by decide
theorem test_V40 :
    answers (step (((machine 0x100#32 0x5021#16).setReg .r1 0xFFFFFFFF#32).setReg .r2 0x1#32))
      (fun t => t.reg .r1 == 0x0#32 && t.readS .flags == 0x3#32 && t.pc == 0x102#32) = true := by decide
theorem test_V41 :
    answers (step ((((machine 0x100#32 0x5121#16).setReg .r1 0x0#32).setReg .r2 0x0#32).writeS .flags 0xC#32))
      (fun t => t.readS .flags == 0x3#32 && t.pc == 0x102#32) = true := by decide
theorem test_V42 :
    answers (step ((((machine 0x100#32 0x4021#16).setReg .r1 0xFFFFFFFF#32).setReg .r2 0x1#32).writeS .flags 0x8#32))
      (fun t => t.reg .r1 == 0x0#32 && t.readS .flags == 0x8#32 && t.pc == 0x102#32) = true := by decide
theorem test_V43 :
    answers (step (((machine 0x100#32 0x5421#16).setReg .r1 0x1#32).setReg .r2 0x2#32))
      (fun t => t.readS .flags == 0x8#32 && t.pc == 0x102#32) = true := by decide
theorem test_V44 :
    answers (step ((((machine 0x100#32 0x5621#16).setReg .r1 0xFFFFFFFF#32).setReg .r2 0x20#32).writeS .flags 0x6#32))
      (fun t => t.reg .r1 == 0x0#32 && t.readS .flags == 0x7#32 && t.pc == 0x102#32) = true := by decide
theorem test_V45 :
    answers (step ((((machine 0x100#32 0x5C21#16).setReg .r1 0xFFFFFFFF#32).setReg .r2 0x0#32).writeS .flags 0x2#32))
      (fun t => t.reg .r1 == 0x0#32 && t.readS .flags == 0x3#32 && t.pc == 0x102#32) = true := by decide
theorem test_V46 :
    answers (step ((((machine 0x100#32 0x5D21#16).setReg .r1 0x0#32).setReg .r2 0x0#32).writeS .flags 0x0#32))
      (fun t => t.reg .r1 == 0xFFFFFFFF#32 && t.readS .flags == 0x8#32 && t.pc == 0x102#32) = true := by decide
theorem test_V47 :
    answers (step ((((machine 0x100#32 0x5D21#16).setReg .r1 0x0#32).setReg .r2 0x0#32).writeS .flags 0x2#32))
      (fun t => t.reg .r1 == 0x0#32 && t.readS .flags == 0x3#32 && t.pc == 0x102#32) = true := by decide
theorem test_V48 :
    answers (step ((((machine 0x100#32 0x5921#16).setReg .r1 0xF0000000#32).setReg .r2 0x80000000#32).writeS .flags 0x7#32))
      (fun t => t.reg .r1 == 0x80000000#32 && t.readS .flags == 0xE#32 && t.pc == 0x102#32) = true := by decide
theorem test_V49 :
    answers (step (((machine 0x100#32 0x4221#16).setReg .sp 0x2000#32).setReg .r2 0xFFFFFFF0#32))
      (fun t => t.reg .r1 == 0x1FF0#32 && t.pc == 0x102#32) = true := by decide
theorem test_V50 :
    answers (step (((machine 0x100#32 0x5321#16).setReg .fp 0x7FFFFFFF#32).setReg .r2 0x7FFFFFFF#32))
      (fun t => t.reg .r1 == 0xFFFFFFFE#32 && t.readS .flags == 0xC#32 && t.pc == 0x102#32) = true := by decide
theorem test_V51 :
    answers (step ((((machine 0x100#32 0x5521#16).setReg .r1 0x9#32).setReg .r2 0x0#32).writeS .flags 0xE#32))
      (fun t => t.reg .r1 == 0x0#32 && t.readS .flags == 0x7#32 && t.pc == 0x102#32) = true := by decide
theorem test_V52 :
    answers (step (((machine 0x100#32 0x4821#16).setReg .r1 0x80000000#32).setReg .r2 0x80000000#32))
      (fun t => t.reg .r1 == 0xFFFFFFFF#32 && t.pc == 0x102#32) = true := by decide
theorem test_V53 :
    answers (step ((machine 0x100#32 0x5111#16).setReg .r1 0x1234#32))
      (fun t => t.reg .r1 == 0x0#32 && t.readS .flags == 0x3#32 && t.pc == 0x102#32) = true := by decide
theorem test_V54 : stops (step (machine 0x100#32 0x4E21#16)) .reservedInstruction = true := by decide
theorem test_V55 : stops (step (machine 0x100#32 0x5F21#16)) .reservedInstruction = true := by decide
theorem test_V56 :
    answers (step ((machine 0x100#32 0x4611#16).setReg .r1 0x3#32))
      (fun t => t.reg .r1 == 0x18#32 && t.pc == 0x102#32) = true := by decide
theorem test_V60 :
    answers (step (machine 0x0#32 0x7C01#16))
      (fun t => t.pc == 0xFFFFFFC2#32) = true := by decide
theorem test_V61 :
    answers (step (machine 0x100#32 0x6000#16))
      (fun t => t.reg .lr == 0x102#32 && t.pc == 0x102#32) = true := by decide
theorem test_V62 :
    answers (step ((machine 0x100#32 0x6062#16).writeS .flags 0xE#32))
      (fun t => t.pc == 0x102#32) = true := by decide
theorem test_V63 :
    answers (step ((machine 0x100#32 0x606A#16).writeS .flags 0x3#32))
      (fun t => t.pc == 0x102#32) = true := by decide
theorem test_V64 :
    answers (step ((machine 0x100#32 0x606F#16).writeS .flags 0xC#32))
      (fun t => t.pc == 0x102#32) = true := by decide
theorem test_V66 :
    answers (step (machine 0x1000#32 0x7000#16))
      (fun t => t.reg .lr == 0x1002#32 && t.pc == 0xF02#32) = true := by decide
theorem test_V70 :
    answers (step ((machine 0x100#32 0x8A11#16).setReg .r1 0x2000#32))
      (fun t => t.pc == 0x102#32) = true := by decide
theorem test_V71 :
    answers (step (((machine 0x100#32 0x8BF1#16).setReg .sp 0xFFFFFFFC#32).storeBytes 0x00000000#32 (wordBytes 0x01020304#32)))
      (fun t => t.reg .r1 == 0x1020304#32 && t.reg .sp == 0x0#32 && t.pc == 0x102#32) = true := by decide
theorem test_V72 :
    answers (step (((machine 0x100#32 0x8AF1#16).setReg .r1 0xA5A5A5A5#32).setReg .sp 0x0#32))
      (fun t => t.reg .sp == 0xFFFFFFFC#32 && t.pc == 0x102#32 && t.readWord 0x00000000#32 == .ok 0xA5A5A5A5#32) = true := by decide
theorem test_V74 : stops (step (machine 0x100#32 0x8481#16)) .reservedInstruction = true := by decide
theorem test_V75 :
    answers (step (((machine 0x100#32 0x8525#16).setReg .r2 0x2#32).writeS .ie 0x1#32))
      (fun t => t.readS .ie == 0x0#32 && t.pc == 0x102#32) = true := by decide
theorem test_V76 :
    answers (step ((machine 0x100#32 0x800D#16).setReg .lr 0x400#32))
      (fun t => t.reg .lr == 0x102#32 && t.pc == 0x400#32) = true := by decide
theorem test_V79 :
    answers (step (((machine 0x100#32 0x8DF5#16).setReg .sp 0xFFC#32).storeBytes 0x00001000#32 (wordBytes 0xFFFFFFFF#32)))
      (fun t => t.reg .sp == 0x1000#32 && t.readS .ie == 0x1#32 && t.pc == 0x102#32) = true := by decide
theorem test_V80 :
    answers (step ((machine 0x100#32 0x8605#16).writeS .flags 0x9#32))
      (fun t => t.readS .ie == 0x1#32 && t.pc == 0x102#32) = true := by decide
theorem test_V82 :
    answers (step (((((machine 0x100#32 0x9521#16).setReg .r1 0x1#32).setReg .r2 0x0#32).writeS .hi 0xFFFFFFFF#32).writeS .lo 0xFFFFFFFF#32))
      (fun t => t.readS .hi == 0x0#32 && t.readS .lo == 0xFFFFFFFF#32 && t.pc == 0x102#32) = true := by decide
theorem test_V83 :
    answers (step (((((machine 0x100#32 0x9621#16).setReg .r1 0xFFFFFFFF#32).setReg .r2 0xFFFFFFFF#32).writeS .hi 0x80000000#32).writeS .lo 0x0#32))
      (fun t => t.readS .hi == 0x80000000#32 && t.readS .lo == 0x0#32 && t.pc == 0x102#32) = true := by decide
theorem test_V84 :
    answers (step (((((machine 0x100#32 0x9821#16).setReg .r1 0xFFFFFFFF#32).setReg .r2 0xFFFFFFFE#32).writeS .hi 0x0#32).writeS .lo 0x7#32))
      (fun t => t.readS .hi == 0x0#32 && t.readS .lo == 0x1#32 && t.pc == 0x102#32) = true := by decide
theorem test_V85 :
    answers (step ((machine 0x100#32 0x8E11#16).setReg .r1 0x10003#32))
      (fun t => t.reg .r1 == 0x60009#32 && t.pc == 0x102#32) = true := by decide
theorem test_V86 : stops (step ((machine 0x100#32 0x9B31#16).setReg .r3 0x2001#32)) .misalignedAccess = true := by decide
theorem test_V88 :
    answers (step (((machine 0x100#32 0x9911#16).setReg .r1 0x2000#32).storeBytes 0x00002000#32 [0x7F#8]))
      (fun t => t.reg .r1 == 0x7F#32 && t.pc == 0x102#32) = true := by decide
theorem test_V89 : stops (step (machine 0x100#32 0x9F00#16)) .reservedInstruction = true := by decide
theorem test_V90 :
    answers (step (((((machine 0x100#32 0x9321#16).setReg .r1 0x10000#32).setReg .r2 0x10000#32).writeS .hi 0xFFFFFFFF#32).writeS .lo 0xFFFFFFFF#32))
      (fun t => t.readS .hi == 0x1#32 && t.readS .lo == 0x0#32 && t.pc == 0x102#32) = true := by decide
theorem test_V91 :
    answers (step (((machine 0x100#32 0x9021#16).setReg .r1 0x80000000#32).setReg .r2 0xFFFFFFFF#32))
      (fun t => t.reg .r1 == 0x80000000#32 && t.pc == 0x102#32) = true := by decide
theorem test_V92 :
    answers (step (((machine 0x100#32 0x9221#16).setReg .r1 0xFFFFFFF9#32).setReg .r2 0xFFFFFFFE#32))
      (fun t => t.reg .r1 == 0xFFFFFFFF#32 && t.pc == 0x102#32) = true := by decide
theorem test_V95 :
    answers (step (((((machine 0x100#32 0x8300#16).writeS .ira 0x400#32).writeS .ie 0x1#32).writeS .ity 0x1#32).writeS .sty 0x9#32))
      (fun t => t.pc == 0x400#32) = true := by decide
theorem test_V100 : stops (step ((machine 0x100#32 0xA221#16).setReg .r2 0x2000#32)) .misalignedAccess = true := by decide
theorem test_V102 :
    answers (step (((machine 0x100#32 0xDC21#16).setReg .r1 0x1020304#32).setReg .r2 0x0#32))
      (fun t => t.pc == 0x102#32 && t.readWord 0xFFFFFFFC#32 == .ok 0x01020304#32) = true := by decide
theorem test_V103 :
    answers (step (((machine 0x100#32 0xA022#16).setReg .r2 0x2000#32).storeBytes 0x00002000#32 (wordBytes 0x00002004#32)))
      (fun t => t.reg .r2 == 0x2004#32 && t.pc == 0x102#32) = true := by decide
theorem test_V110 :
    answers (step ((((machine 0x100#32 0xE021#16).setReg .r1 0x100#32).setReg .r2 0xFF#32).writeS .flags 0xF#32))
      (fun t => t.readS .flags == 0x0#32 && t.pc == 0x102#32) = true := by decide
theorem test_V111 :
    answers (step (((machine 0x100#32 0xE021#16).setReg .r1 0x7F#32).setReg .r2 0xFF#32))
      (fun t => t.readS .flags == 0xC#32 && t.pc == 0x102#32) = true := by decide
theorem test_V112 :
    answers (step (((machine 0x100#32 0xE421#16).setReg .r1 0x8000#32).setReg .r2 0x1#32))
      (fun t => t.readS .flags == 0x6#32 && t.pc == 0x102#32) = true := by decide
theorem test_V113 :
    answers (step (((machine 0x100#32 0xE121#16).setReg .r1 0xFFFFFFFF#32).setReg .r2 0x8#32))
      (fun t => t.reg .r1 == 0x0#32 && t.pc == 0x102#32) = true := by decide
theorem test_V114 :
    answers (step (((machine 0x100#32 0xE221#16).setReg .r1 0x80#32).setReg .r2 0x64#32))
      (fun t => t.reg .r1 == 0xFFFFFFFF#32 && t.pc == 0x102#32) = true := by decide
theorem test_V115 :
    answers (step (((machine 0x100#32 0xE521#16).setReg .r1 0xABCD1234#32).setReg .r2 0x0#32))
      (fun t => t.reg .r1 == 0x1234#32 && t.pc == 0x102#32) = true := by decide
theorem test_V116 :
    answers (step (((machine 0x100#32 0xE621#16).setReg .r1 0x7FFF#32).setReg .r2 0xF#32))
      (fun t => t.reg .r1 == 0x0#32 && t.pc == 0x102#32) = true := by decide
theorem test_V117 : stops (step (machine 0x100#32 0xE321#16)) .reservedInstruction = true := by decide
theorem test_V118 : stops (step (machine 0x100#32 0xE821#16)) .reservedInstruction = true := by decide
theorem test_V119 : stops (step (machine 0x100#32 0xFFFF#16)) .reservedInstruction = true := by decide
theorem test_V130 :
    answers (step (withIrq (((((machine 0x100#32 0x2101#16).setReg .r1 0x0#32).writeS .ie 0x1#32).writeS .ids 0x1000#32).writeS .ity 0x1#32)))
      (fun t => t.readS .ira == 0x100#32 && t.readS .ie == 0x0#32 && t.readS .ity == 0x0#32 && t.pc == 0x1000#32) = true := by decide
theorem test_V131 :
    answers (step (withIrq ((((machine 0x100#32 0x2101#16).setReg .r1 0x0#32).writeS .ie 0x0#32).writeS .ids 0x1000#32)))
      (fun t => t.reg .r1 == 0x1#32 && t.pc == 0x102#32) = true := by decide
theorem test_V136 :
    answers (step ((((machine 0x200#32 0x22E1#16).setReg .r1 0x10#32).writeS .ids 0x1000#32).writeS .ie 0x0#32))
      (fun t => t.readS .ira == 0x202#32 && t.readS .ity == 0x1#32 && t.readS .sty == 0x12#32 && t.pc == 0x1000#32) = true := by decide

/-! Instructions that no one-step vector has, worked out by hand -/

/-- `r1` = 0x800000F0, `r2` = 4, `sp` = 0x1000, `fp` = 0x2000, `flags` = 0x7 (Z, C, V). -/
def operands : State :=
  ((((State.reset.setReg .r1 0x800000F0#32).setReg .r2 0x4#32).setReg .sp 0x1000#32).setReg .fp 0x2000#32).writeS .flags
    0x7#32

/-- What `r1` becomes; `flags` stays. -/
theorem test_results : ∀ p ∈ ([
    (.addSpImm .r1 0x1F#5, 0x00000FFF#32), (.addFpImm .r1 0x0F#5, 0x0000200F#32), (.cpyImm .r1 0x10#5, 0xFFFFFFF0#32),
    (.asrImm .r1 0x04#5, 0xF800000F#32), (.orrImm .r1 0x0F#5, 0x800000FF#32), (.xorImm .r1 0x1F#5, 0x7FFFFF0F#32),
    (.sub .r1 .r2, 0x800000EC#32), (.addFp .r1 .r2, 0x00002004#32), (.cpy .r1 .r2, 0x00000004#32),
    (.lsr .r1 .r2, 0x0800000F#32), (.and .r1 .r2, 0x00000000#32), (.orr .r1 .r2, 0x800000F4#32),
    (.xor .r1 .r2, 0x800000F4#32), (.adc .r1 .r2, 0x800000F5#32), (.sbc .r1 .r2, 0x800000EC#32),
    (.udiv .r1 .r2, 0x2000003C#32), (.umod .r1 .r2, 0x00000000#32)] : List (Instr × Word)),
    answers (exec p.1 operands) (fun t => t.reg .r1 == p.2 && t.readS .flags == 0x7#32) = true := by decide

/-- What `r1` and `flags` become. -/
theorem test_results_with_flags : ∀ p ∈ ([
    (.addSpF .r1 .r2, 0x00001004#32, 0x0#32), (.lsrF .r1 .r2, 0x0800000F#32, 0x6#32),
    (.asrF .r1 .r2, 0xF800000F#32, 0xE#32), (.orrF .r1 .r2, 0x800000F4#32, 0xE#32),
    (.xorF .r1 .r2, 0x800000F4#32, 0xE#32)] : List (Instr × Word × Word)),
    answers (exec p.1 operands) (fun t => t.reg .r1 == p.2.1 && t.readS .flags == p.2.2) = true := by decide

/-- -2 times 3 is -6, in 64 bits. -/
theorem test_lsmul :
    answers (exec (.lsmul .r1 .r2) ((State.reset.setReg .r1 0xFFFFFFFE#32).setReg .r2 0x3#32))
      (fun t => t.readS .hi == 0xFFFFFFFF#32 && t.readS .lo == 0xFFFFFFFA#32) = true := by decide

/-- 0x1_00000005 modulo 4 is 1. -/
theorem test_lumod :
    answers (exec (.lumod .r1 .r2) (((State.reset.setReg .r2 0x4#32).writeS .hi 0x1#32).writeS .lo 0x5#32))
      (fun t => t.readS .hi == 0x0#32 && t.readS .lo == 0x1#32) = true := by decide

theorem test_jmp : answers (exec (.jmp .sp) operands) (fun t => t.pc == 0x1000#32) = true := by decide
theorem test_jmpIra_leaves_ie :
    answers (exec .jmpIra (operands.writeS .ira 0x400#32)) (fun t => t.pc == 0x400#32 && !t.ie) = true := by decide
theorem test_ei : answers (exec .ei operands) (fun t => t.ie && t.pc == 0x2#32) = true := by decide
theorem test_di : answers (exec .di (operands.writeS .ie 0x1#32)) (fun t => !t.ie && t.pc == 0x2#32) = true := by decide
theorem test_index :
    answers (exec (.index .r2) operands) (fun t => t.indexHave && t.indexReg == 0x4#32 && t.pc == 0x2#32) = true := by
  decide
theorem test_lpre :
    answers (exec (.lpre 0x7FFFFFF#27) operands) (fun t => t.lpreHave && t.lpreImm == 0x7FFFFFF#27 && t.pc == 0x4#32)
      = true := by decide
theorem test_pushS :
    answers (exec (.pushS 0x0#4 .sp) operands) (fun t => t.readWord 0x1000#32 == .ok 0x7#32 && t.reg .sp == 0xFFC#32)
      = true := by decide
theorem test_ldsb :
    answers (exec (.ldsb .r1 .sp) (operands.storeBytes 0x1000#32 [0x80#8])) (fun t => t.reg .r1 == 0xFFFFFF80#32)
      = true := by decide
theorem test_ldsh :
    answers (exec (.ldsh .r1 .sp) (operands.storeBytes 0x1000#32 [0xF3#8, 0x44#8])) (fun t => t.reg .r1 == 0xFFFFF344#32)
      = true := by decide
theorem test_stb :
    answers (exec (.stb .r1 .sp) operands)
      (fun t => t.readByte 0x1000#32 == .ok 0xF0#8 && t.readByte 0x1001#32 == .error .unwrittenByte) = true := by decide
theorem test_sth :
    answers (exec (.sth .r1 .sp) operands)
      (fun t => t.readByte 0x1000#32 == .ok 0x00#8 && t.readByte 0x1001#32 == .ok 0xF0#8) = true := by decide

/-- Which of the sixteen branches, by opcode, are taken under a value of `flags`, as the bits of a number. -/
def branchesTaken (f : Nat) : Nat :=
  (List.range 16).foldr (fun k n => 2 * n +
    match decode (halfBytes (0x6040#16 + BitVec.ofNat 16 k)) with
    | .ok (i, _) => (answers (exec i (State.reset.writeS .flags (BitVec.ofNat 32 f))) (fun t => t.pc == 0x6#32)).toNat
    | .error _ => 0) 0

/-! Every branch under every value of `flags`: the rows of the table of 95_test_vectors.md section 6 (R240), bit `k` of
a row's number the column of opcode `k`. -/
theorem test_branches_a :
    branchesTaken 0x0 = 0x5AAB ∧ branchesTaken 0x1 = 0x9AA7 ∧
    branchesTaken 0x2 = 0x55AB ∧ branchesTaken 0x3 = 0x99A7 := by decide
theorem test_branches_b :
    branchesTaken 0x4 = 0xAA6B ∧ branchesTaken 0x5 = 0xAA67 ∧
    branchesTaken 0x6 = 0xA56B ∧ branchesTaken 0x7 = 0xA967 := by decide
theorem test_branches_c :
    branchesTaken 0x8 = 0xAA9B ∧ branchesTaken 0x9 = 0xAA97 ∧
    branchesTaken 0xA = 0xA59B ∧ branchesTaken 0xB = 0xA997 := by decide
theorem test_branches_d :
    branchesTaken 0xC = 0x5A5B ∧ branchesTaken 0xD = 0x9A57 ∧
    branchesTaken 0xE = 0x555B ∧ branchesTaken 0xF = 0x9957 := by decide

/-- The word of a 16-bit row after reset, and of the one 32-bit row. -/
theorem test_withFetchWord :
    (decodeTableWord 16 0x2105 = some (.addImm .r5 0x1#5) ∧
      answers (step (State.reset.withFetchWord 16 0x2105)) (fun t => t.reg .r5 == 0x1#32) = true) ∧
    (decodeTableWord 32 0x10000001 = some (.lpre 0x0000001#27) ∧
      answers (step (State.reset.withFetchWord 32 0x10000001)) (fun t => t.lpreImm == 0x1#27) = true) := by decide

/-! Witnesses: for each statement that has hypotheses, values that meet them together, one for each clause -/

theorem witness_DecodeGivesBackWhatWasEncoded :
    (Instr.cpySS 0x7#4 0x0#4).wellFormed = true ∧ (Instr.lpre 0x7FFFFFF#27).wellFormed = true := by decide

theorem witness_DecodedInstructionsAreWellFormed :
    decode [0x86#8, 0x57#8, 0xAA#8] = .ok (.cpySS 0x7#4 0x5#4, [0xAA#8]) ∧
    decode [0x17#8, 0xFF#8, 0xFF#8, 0xFF#8] = .ok (.lpre 0x7FFFFFF#27, []) := by decide

/-- The first and the last halfword of each reserved range, and halfwords beside them that are none. -/
theorem witness_ReservedHalfwordsAreExactlyThose :
    (([0x1800#16, 0x1FFF#16, 0x4E00#16, 0x4FFF#16, 0x5E00#16, 0x5FFF#16, 0x9F00#16, 0x9FFF#16, 0xE800#16, 0xFFFF#16,
        0xE300#16, 0xE3FF#16, 0xE700#16, 0xE7FF#16, 0x8480#16, 0x84FF#16, 0x8508#16, 0x85FF#16, 0x8680#16, 0x8608#16,
        0x8C08#16, 0x8DFF#16] : List Halfword).all fun h => !isLpre h && !(decodeHalf h).isOk) = true ∧
    (([0x0FFF#16, 0x2000#16, 0x4DFF#16, 0x5DFF#16, 0x9EFF#16, 0xE2FF#16, 0xE6FF#16, 0x847F#16, 0x85F7#16, 0x8677#16,
        0x8CF7#16, 0x8DF7#16] : List Halfword).all fun h => !isLpre h && (decodeHalf h).isOk) = true := by decide

/-- Four bytes at the top of the address space. -/
def atTheTop : State := State.reset.storeBytes 0xFFFFFFFC#32 [0x81#8, 0x22#8, 0xF3#8, 0x44#8]

theorem witness_WideReadsAreBigEndian :
    (atTheTop.readByte 0xFFFFFFFE#32 = .ok 0xF3#8 ∧ atTheTop.readByte (0xFFFFFFFE#32 + 1#32) = .ok 0x44#8 ∧
      (0xFFFFFFFE#32).toNat % 2 = 0) ∧
    (atTheTop.readByte 0xFFFFFFFC#32 = .ok 0x81#8 ∧ atTheTop.readByte (0xFFFFFFFC#32 + 1#32) = .ok 0x22#8 ∧
      (0xFFFFFFFC#32).toNat % 4 = 0 ∧ atTheTop.readByte (0xFFFFFFFC#32 + 2#32) = .ok 0xF3#8 ∧
      atTheTop.readByte (0xFFFFFFFC#32 + 3#32) = .ok 0x44#8) := by decide

theorem witness_StoredWordReadsBackAtEveryWidth :
    (0x0#32).toNat % 4 = 0 ∧ State.reset.backedAll 0x0#32 4 = true ∧
      (0xFFFFFFFC#32).toNat % 4 = 0 ∧ State.reset.backedAll 0xFFFFFFFC#32 4 = true := by decide

theorem witness_StepRunsTheDecodedInstruction :
    (let s := machine 0xFFFFFFFE#32 0x2101#16
     s.irqAccepted = false ∧ s.pc.toNat % 2 = 0 ∧ s.readByte s.pc = .ok 0x21#8 ∧
      s.readByte (s.pc + 1#32) = .ok 0x01#8 ∧ isLpre (0x21#8 ++ 0x01#8) = false ∧
      decode [0x21#8, 0x01#8] = .ok (.addImm .r1 0x1#5, [])) ∧
    (let s := { atTheTop.storeBytes 0xFFFFFFFC#32 [0x17#8, 0xFF#8, 0x00#8, 0x01#8] with pc := 0xFFFFFFFC#32 }
     s.irqAccepted = false ∧ s.pc.toNat % 2 = 0 ∧ s.readByte s.pc = .ok 0x17#8 ∧
      s.readByte (s.pc + 1#32) = .ok 0xFF#8 ∧ isLpre (0x17#8 ++ 0xFF#8) = true ∧
      s.readByte (s.pc + 2#32) = .ok 0x00#8 ∧ s.readByte (s.pc + 3#32) = .ok 0x01#8 ∧
      decode [0x17#8, 0xFF#8, 0x00#8, 0x01#8] = .ok (.lpre 0x7FF0001#27, [])) := by decide

theorem witness_FetchStopsAtOddOrUnbackedAddresses :
    (let s := machine 0x101#32 0x2101#16
     s.irqAccepted = false ∧ s.pc.toNat % 2 = 1) ∧
    (let s : State := { State.reset with params := { Config.specDefaults with memMap := [⟨0x0#32, 0xFF#32⟩] }, pc := 0x100#32 }
     s.irqAccepted = false ∧ s.pc.toNat % 2 = 0 ∧ s.backedAll s.pc 2 = false) := by decide

theorem witness_ReservedHalfwordStopsTheStep :
    let s := machine 0x100#32 0x84F8#16
    s.irqAccepted = false ∧ s.pc.toNat % 2 = 0 ∧ s.readByte s.pc = .ok 0x84#8 ∧ s.readByte (s.pc + 1#32) = .ok 0xF8#8 ∧
      isLpre (0x84#8 ++ 0xF8#8) = false ∧ decodeHalf (0x84#8 ++ 0xF8#8) = .error .reservedSpecialRegister := by decide

theorem witness_PlacedWordIsWhatRuns :
    let s := { withIrq State.reset with pc := 0xFFFFFFFE#32, ie := true }
    s.pc.toNat % 2 = 0 ∧ s.backedAll s.pc 4 = true ∧ decodeTableWord 16 0x2105 = some (.addImm .r5 0x1#5) ∧
      State.reset.irqAccepted = false := by decide

/-- With the input raised: an instruction that the step reaches, and an odd `pc`; both are states after reset. -/
theorem witness_FirstStepAfterResetIsAFetch :
    (let s := withIrq (machine 0x100#32 0x2105#16)
     s.ie = false ∧ answers (step s) (fun t => t.reg .r5 == 0x1#32) = true) ∧
    (let s := withIrq (machine 0x101#32 0x2105#16)
     s.ie = false ∧ s.pc.toNat % 2 = 1) := by decide

/-- A state with memory, and `pre` in effect, whose step stores a word. -/
def storing : State :=
  { (machine 0x100#32 0xC021#16).storeBytes 0x2003#32 [0x55#8, 0x66#8] with
    regs := Regs.reset.write .r2 0x2000#32, preHave := true }

theorem witness_EveryStepKeepsTheInvariant : storing.Inv ∧ answers (step storing) (fun _ => true) = true :=
  ⟨⟨by decide, by decide, by decide⟩, by decide⟩

/-- `pre`, then `index`, then `add`. -/
theorem witness_PrefixesBlockAtMostTwoBoundaries :
    let s := State.reset.storeBytes 0x0#32 [0x01#8, 0x23#8, 0x87#8, 0x02#8]
    answers (step s) (fun t => t.prefixed && answers (step t) (fun u => u.prefixed)) = true := by decide

theorem witness_SequentialInstructionsAdvancePc :
    (answers (exec (.lpre 0x1#27) operands) (fun _ => true) = true ∧ (Instr.lpre 0x1#27).transfersControl = false) ∧
    (answers (exec (.add .r1 .r2) operands) (fun _ => true) = true ∧ (Instr.add .r1 .r2).transfersControl = false) := by
  decide

theorem witness_GeneralRegistersChangeOnlyAsNamed :
    answers (exec (.pop .r1 .sp) (operands.storeBytes 0x1004#32 [0x1#8, 0x2#8, 0x3#8, 0x4#8])) (fun _ => true) = true ∧
      Reg.fp ∉ (Instr.pop .r1 .sp).generalWritten := by decide

theorem witness_SpecialRegistersChangeOnlyAsNamed :
    answers (exec (.swiImm 0x1#5) operands) (fun _ => true) = true ∧ SReg.flags ∉ (Instr.swiImm 0x1#5).specialWritten := by
  decide

/-- The byte after the four that `str` stores, and any byte where nothing is stored. -/
theorem witness_MemoryChangesOnlyWhereStored :
    (answers (exec (.str .r1 .sp 0x0#5) operands) (fun _ => true) = true ∧
      notStored operands (.str .r1 .sp 0x0#5) 0x1004#32) ∧
    (answers (exec (.add .r1 .r2) operands) (fun _ => true) = true ∧ notStored operands (.add .r1 .r2) 0x1000#32) := by
  refine ⟨⟨by decide, fun a n h => ?_⟩, ⟨by decide, fun a n h => by cases h⟩⟩
  cases h
  unfold outside
  decide

theorem witness_InputAndParametersAreNotTheCores :
    answers (exec .ei operands) (fun _ => true) = true ∧ answers (step storing) (fun _ => true) = true := by decide

theorem witness_PrefixStateMachine :
    (Instr.add .r1 .r2).isPrefix = false ∧ answers (exec (.add .r1 .r2) storing) (fun _ => true) = true := by decide

/-- The prefix states of the three clauses: none, `pre`, `lpre`. -/
def prefixedStates : List State :=
  [State.reset, { State.reset with preHave := true, preImm := 0x800#12 },
    { State.reset with lpreHave := true, lpreImm := 0x7FFFFFF#27 }]

theorem witness_ImmediatesAreWidenedByPrefixes :
    prefixedStates.map (fun s => (s.preHave, s.lpreHave)) = [(false, false), (true, false), (false, true)] ∧
      prefixedStates.map (fun s => s.imm5 0x1F#5) = [0xFFFFFFFF#32, 0xFFFF001F#32, 0xFFFFFFFF#32] := by decide

theorem witness_BranchOffsetsAreWidenedByPrefixes :
    prefixedStates.map (fun s => (s.preHave, s.lpreHave)) = [(false, false), (true, false), (false, true)] ∧
      prefixedStates.map (fun s => s.imm9 0x100#9) = [0xFFFFFF00#32, 0xFFF00100#32, 0xFFFFFF00#32] := by decide

/-- Position 31 by `pre`, and position 32 under either value of `ZE_SE_RANGE`. -/
theorem witness_ZeroAndSignExtensionFromAPosition :
    (let s : State := { State.reset with preHave := true, preImm := 0x000#12 }
     (s.imm5 0x1F#5).toNat = 31) ∧
    (let s : State := { State.reset with preHave := true, preImm := 0x001#12,
                                         params := { Config.specDefaults with zeSeRange := .lowFive } }
     (s.imm5 0x00#5).toNat = 32 ∧ s.params.zeSeRange = .lowFive) ∧
    (let s : State := { State.reset with preHave := true, preImm := 0x001#12 }
     32 ≤ (s.imm5 0x00#5).toNat ∧ s.params.zeSeRange = .unchanged) := by decide

theorem witness_MultiwordAdditionAndSubtraction : Reg.r1 ≠ Reg.r0 ∧ Reg.r3 ≠ Reg.r0 := by decide

theorem witness_ReturnsResumeWhereTheEntryLeftOff :
    (let s := withIrq (operands.writeS .ie 0x1#32)
     s.irqAccepted = true ∧ answers (step s) (fun _ => true) = true) ∧
    answers (exec (.swiImm 0x10#5) operands) (fun _ => true) = true := by decide

theorem witness_ReservedSpecialRegisterFieldStops : 8 ≤ (0x8#4 : SField).toNat ∧ 8 ≤ (0xF#4 : SField).toNat := by decide

theorem witness_PushStoresThenDecrements :
    (operands.reg .sp).toNat % 4 = 0 ∧ operands.backedAll (operands.reg .sp) 4 = true ∧ Reg.r1 ≠ Reg.sp := by decide

theorem witness_PopIncrementsThenLoads :
    (operands.storeBytes 0x1004#32 [0x1#8, 0x2#8, 0x3#8, 0x4#8]).readWord (operands.reg .sp + 4#32) = .ok 0x01020304#32 ∧
      Reg.r1 ≠ Reg.sp := by decide

theorem witness_PopUndoesPush :
    Reg.r1 ≠ Reg.sp ∧ Reg.lr ≠ Reg.sp ∧ (operands.reg .sp).toNat % 4 = 0 ∧
      operands.backedAll (operands.reg .sp) 4 = true := by decide

/-- A divisor of 1, the least that is not zero, and a 64-bit one whose low word is zero. -/
theorem witness_UnsignedDivision :
    ((State.reset.setReg .r2 0x1#32).reg .r2).toNat ≠ 0 ∧
      ((State.reset.setReg .r1 0x1#32).reg .r1).toNat * 2 ^ 32 + ((State.reset.setReg .r1 0x1#32).reg .r2).toNat ≠ 0 := by
  decide

/-- A divisor of -1, of 32 and of 64 bits. -/
theorem witness_SignedDivision :
    let s := (State.reset.setReg .r1 0xFFFFFFFF#32).setReg .r2 0xFFFFFFFF#32
    (s.reg .r2).toInt ≠ 0 ∧ (s.reg .r1 ++ s.reg .r2 : DWord).toInt ≠ 0 := by decide

theorem witness_DivisionByZeroRuns : operands.reg .r3 = 0#32 ∧ operands.reg .r4 = 0#32 := by decide

theorem witness_NarrowLoads :
    (atTheTop.setReg .r2 0xFFFFFFFF#32).readByte 0xFFFFFFFF#32 = .ok 0x44#8 ∧
      (atTheTop.setReg .r2 0xFFFFFFFE#32).readHalf 0xFFFFFFFE#32 = .ok 0xF344#16 := by decide

theorem witness_NarrowStores :
    operands.backed (operands.narrowEa .sp) = true ∧ (operands.narrowEa .sp).toNat % 2 = 0 ∧
      operands.backedAll (operands.narrowEa .sp) 2 = true := by decide

theorem witness_WordLoadAndStore :
    (atTheTop.readWord (atTheTop.wordEa .r2 0x1C#5) = .ok 0x8122F344#32) ∧
      (operands.wordEa .sp 0x1C#5).toNat % 4 = 0 ∧ operands.backedAll (operands.wordEa .sp 0x1C#5) 4 = true := by decide

/-- `rB` at an odd address misaligns every access wider than a byte; with no memory at all every aligned one is
refused. -/
theorem witness_DataAccessStops :
    Reg.r1 ≠ Reg.r2 ∧
    (let s := State.reset.setReg .r2 0x1003#32
     (s.narrowEa .r2).toNat % 2 ≠ 0 ∧ (s.wordEa .r2 0x0#5).toNat % 4 ≠ 0 ∧ (s.reg .r2).toNat % 4 ≠ 0 ∧
      (s.reg .r2 + 4#32).toNat % 4 ≠ 0) ∧
    (let s : State := { State.reset with params := { Config.specDefaults with memMap := [] } }
     (s.narrowEa .r2).toNat % 1 = 0 ∧ s.backedAll (s.narrowEa .r2) 1 = false ∧
      (s.narrowEa .r2).toNat % 2 = 0 ∧ s.backedAll (s.narrowEa .r2) 2 = false ∧
      (s.wordEa .r2 0x0#5).toNat % 4 = 0 ∧ s.backedAll (s.wordEa .r2 0x0#5) 4 = false ∧
      (s.reg .r2 + 4#32).toNat % 4 = 0 ∧ s.backedAll (s.reg .r2 + 4#32) 4 = false) := by decide

theorem witness_NarrowShifts : operands.params.narrowUpper = .extended := by decide

end Sys2Proof.Tests
end

section
/-! SUPPORT. The widening of an immediate by the prefixes: a concatenation read as a signed number, and the value of
`State.imm5` for each prefix in effect. -/

namespace Sys2Proof.Machine

/-- Two's complement as an unsigned number, less `2^(n+1)` where the top bit counts. -/
theorem toInt_eq_toNat_sub {n : Nat} (x : BitVec (n + 1)) :
    x.toInt = (x.toNat : Int) - (if 2 ^ n ≤ x.toNat then 2 ^ (n + 1) else 0) := by
  have pow_double : 2 ^ (n + 1) = 2 * 2 ^ n := pow_succ' 2 n
  rw [BitVec.toInt_eq_toNat_cond]
  split_ifs <;> push_cast <;> omega

/-- A concatenation as a signed number: only the left part's top bit is a sign (R12). -/
theorem toInt_append_eq {n m : Nat} (x : BitVec (n + 1)) (y : BitVec m) :
    (x ++ y).toInt = (x.toNat * 2 ^ m + y.toNat : Int) - (if 2 ^ n ≤ x.toNat then 2 ^ (n + 1 + m) else 0) := by
  have signed_parts : (x ++ y).toInt = 2 ^ m * x.toInt + y.toNat := by simp [BitVec.toInt_append]
  rw [signed_parts, toInt_eq_toNat_sub]
  split_ifs <;> ring

/-- The immediate where no prefix is in effect (R112). -/
theorem State.imm5_toInt_of_no_prefix {s : State} (hpre : s.preHave = false) (hlpre : s.lpreHave = false)
    (imm : BitVec 5) : (s.imm5 imm).toInt = imm.toInt := by
  rw [show s.imm5 imm = imm.signExtend 32 by simp [State.imm5, hpre, hlpre]]
  exact BitVec.toInt_signExtend_of_le (by decide)

/-- The immediate after `pre` is the 17-bit concatenation as a signed number (R113). -/
theorem State.imm5_toInt_of_pre {s : State} (hpre : s.preHave = true) (imm : BitVec 5) :
    (s.imm5 imm).toInt = (s.preImm ++ imm).toInt := by
  rw [show s.imm5 imm = (s.preImm ++ imm).signExtend 32 by simp [State.imm5, hpre]]
  exact BitVec.toInt_signExtend_of_le (by decide)

/-- The immediate after `lpre` is the 32-bit concatenation, nothing to extend (R114). -/
theorem State.imm5_of_lpre {s : State} (hpre : s.preHave = false) (hlpre : s.lpreHave = true) (imm : BitVec 5) :
    s.imm5 imm = s.lpreImm ++ imm := by
  simp [State.imm5, hpre, hlpre]

end Sys2Proof.Machine

open Sys2Proof.Machine

/-- Settles O26, by the prefix in effect: the value comes from the concatenation, its range from the concatenation's
width before the sign extension. -/
theorem immediatesAreWidenedByPrefixes : Obligations.ImmediatesAreWidenedByPrefixes := by
  intro s imm
  refine ⟨fun hpre hlpre => ?no_prefix, fun hpre _ => ?pre, fun hpre hlpre => ?lpre⟩
  case no_prefix =>
    rw [State.imm5_toInt_of_no_prefix hpre hlpre]
    exact ⟨rfl, BitVec.le_toInt imm, Int.le_of_lt_add_one BitVec.toInt_lt⟩
  case pre =>
    rw [State.imm5_toInt_of_pre hpre]
    exact ⟨toInt_append_eq s.preImm imm, BitVec.le_toInt _, Int.le_of_lt_add_one BitVec.toInt_lt⟩
  case lpre =>
    rw [State.imm5_of_lpre hpre hlpre, toNat_append_eq]

end

section
/-! SUPPORT. The instructions of group 1 that write one result to `rA`: what each does, as an equation, and the encoding
and the whole next state that they share. -/

namespace Sys2Proof.Machine

/-! One equation per instruction -/

theorem exec_addImm (s : State) (rA : Reg) (imm : BitVec 5) :
    exec (.addImm rA imm) s = .next (s.setReg rA (s.reg rA + s.imm5 imm)).retire := rfl

theorem exec_addPcImm (s : State) (rA : Reg) (imm : BitVec 5) :
    exec (.addPcImm rA imm) s = .next (s.setReg rA (s.pc + s.imm5 imm + 2#32)).retire := rfl

theorem exec_addSpImm (s : State) (rA : Reg) (imm : BitVec 5) :
    exec (.addSpImm rA imm) s = .next (s.setReg rA (s.reg .sp + s.imm5 imm)).retire := rfl

theorem exec_addFpImm (s : State) (rA : Reg) (imm : BitVec 5) :
    exec (.addFpImm rA imm) s = .next (s.setReg rA (s.reg .fp + s.imm5 imm)).retire := rfl

theorem exec_cpyImm (s : State) (rA : Reg) (imm : BitVec 5) :
    exec (.cpyImm rA imm) s = .next (s.setReg rA (s.imm5 imm)).retire := rfl

theorem exec_andImm (s : State) (rA : Reg) (imm : BitVec 5) :
    exec (.andImm rA imm) s = .next (s.setReg rA (s.reg rA &&& s.imm5 imm)).retire := rfl

theorem exec_orrImm (s : State) (rA : Reg) (imm : BitVec 5) :
    exec (.orrImm rA imm) s = .next (s.setReg rA (s.reg rA ||| s.imm5 imm)).retire := rfl

theorem exec_xorImm (s : State) (rA : Reg) (imm : BitVec 5) :
    exec (.xorImm rA imm) s = .next (s.setReg rA (s.reg rA ^^^ s.imm5 imm)).retire := rfl

/-! What they share -/

/-- Writing one general register and going on changes that register, `pc` and the prefix state (R38, R146). -/
theorem State.setReg_retire_eq_completed (s : State) (rA : Reg) (r : Word) :
    (s.setReg rA r).retire = completed { s with regs := s.regs.write rA r } :=
  (completed_eq_retire (s.setReg rA r)).symm

/-- The halfword `001i iiii oooo aaaa` (R105), and the state after an instruction that writes `r` to `rA`. -/
theorem group1_encoding_and_result {i : Instr} {o : BitVec 4} {rA : Reg} {imm : BitVec 5} {s : State} {r : Word}
    (hencode : encode i = encodeGroup1 o rA.field imm) (hexec : exec i s = .next (s.setReg rA r).retire) :
    encode i = [0b001#3 ++ imm ++ o ++ rA.field] ∧
      exec i s = .next (completed { s with regs := s.regs.write rA r }) :=
  ⟨by rw [hencode, encodeGroup1], by rw [hexec, State.setReg_retire_eq_completed]⟩

end Sys2Proof.Machine

open Sys2Proof.Machine

/-- Settles O28, row by row of its list: each row's opcode is the one the encoder writes, and its result is the one its
instruction's equation names. -/
theorem immediateArithmeticAndLogic : Obligations.ImmediateArithmeticAndLogic := by
  intro s rA imm
  simp only [List.forall_mem_cons, List.not_mem_nil, false_implies, implies_true, and_true]
  refine ⟨?addImm, ?addPcImm, ?addSpImm, ?addFpImm, ?cpyImm, ?andImm, ?orrImm, ?xorImm⟩
  case addImm => exact group1_encoding_and_result rfl (exec_addImm s rA imm)
  case addPcImm => exact group1_encoding_and_result rfl (exec_addPcImm s rA imm)
  case addSpImm => exact group1_encoding_and_result rfl (exec_addSpImm s rA imm)
  case addFpImm => exact group1_encoding_and_result rfl (exec_addFpImm s rA imm)
  case cpyImm => exact group1_encoding_and_result rfl (exec_cpyImm s rA imm)
  case andImm => exact group1_encoding_and_result rfl (exec_andImm s rA imm)
  case orrImm => exact group1_encoding_and_result rfl (exec_orrImm s rA imm)
  case xorImm => exact group1_encoding_and_result rfl (exec_xorImm s rA imm)

end

section
/-! SUPPORT. The copy and the logic of group 2: what each instruction does, as an equation, and the encodings and the
whole next states that a plain form and its `.f` form share. -/

namespace Sys2Proof.Machine

/-! One equation per instruction -/

theorem exec_cpy (s : State) (rA rB : Reg) :
    exec (.cpy rA rB) s = .next (s.writeLogic false rA (s.reg rB)).retire := rfl

theorem exec_cpyF (s : State) (rA rB : Reg) :
    exec (.cpyF rA rB) s = .next (s.writeLogic true rA (s.reg rB)).retire := rfl

theorem exec_and (s : State) (rA rB : Reg) :
    exec (.and rA rB) s = .next (s.writeLogic false rA (s.reg rA &&& s.reg rB)).retire := rfl

theorem exec_andF (s : State) (rA rB : Reg) :
    exec (.andF rA rB) s = .next (s.writeLogic true rA (s.reg rA &&& s.reg rB)).retire := rfl

theorem exec_orr (s : State) (rA rB : Reg) :
    exec (.orr rA rB) s = .next (s.writeLogic false rA (s.reg rA ||| s.reg rB)).retire := rfl

theorem exec_orrF (s : State) (rA rB : Reg) :
    exec (.orrF rA rB) s = .next (s.writeLogic true rA (s.reg rA ||| s.reg rB)).retire := rfl

theorem exec_xor (s : State) (rA rB : Reg) :
    exec (.xor rA rB) s = .next (s.writeLogic false rA (s.reg rA ^^^ s.reg rB)).retire := rfl

theorem exec_xorF (s : State) (rA rB : Reg) :
    exec (.xorF rA rB) s = .next (s.writeLogic true rA (s.reg rA ^^^ s.reg rB)).retire := rfl

/-! What they share -/

/-- Z says that the result is zero and N is its bit 31; C and V stay (R192). -/
theorem Flags.ofResult_eq (f : Flags) (r : Word) :
    f.ofResult r = { f with z := decide (r = 0#32), n := r.getLsbD 31 } := by
  have zero_iff : r.toNat = 0 ↔ r = 0#32 := BitVec.toNat_inj (y := 0#32)
  have sign_bit : r.msb = r.getLsbD 31 := BitVec.msb_eq_getLsbD_last r
  simp only [Flags.ofResult, zero_iff, sign_bit]

/-- Where the `f` bit is 0, the result is one register's write and nothing more (R191). -/
theorem State.writeLogic_false (s : State) (rA : Reg) (r : Word) : s.writeLogic false rA r = s.setReg rA r := rfl

/-- Where the `f` bit is 1, the whole next state: the register, and Z and N of the result (R191, R192). -/
theorem State.writeLogic_true_retire_eq_completed (s : State) (rA : Reg) (r : Word) :
    (s.writeLogic true rA r).retire = completed
      { s with regs := s.regs.write rA r, flags := { s.flags with z := decide (r = 0#32), n := r.getLsbD 31 } } := by
  rw [← Flags.ofResult_eq]
  exact (completed_eq_retire (s.writeLogic true rA r)).symm

/-- The halfwords `010f oooo bbbb aaaa` (R106) of a plain form and its `.f` form, and the states after them where both
write `r` to `rA`. -/
theorem group2_logic_encodings_and_results {plain flagged : Instr} {o : BitVec 4} {rA rB : Reg} {s : State} {r : Word}
    (encode_plain : encode plain = encodeGroup2 0#1 o rA rB)
    (encode_flagged : encode flagged = encodeGroup2 1#1 o rA rB)
    (exec_plain : exec plain s = .next (s.writeLogic false rA r).retire)
    (exec_flagged : exec flagged s = .next (s.writeLogic true rA r).retire) :
    encode plain = [0b010#3 ++ 0#1 ++ o ++ rB.field ++ rA.field] ∧
      encode flagged = [0b010#3 ++ 1#1 ++ o ++ rB.field ++ rA.field] ∧
      exec plain s = .next (completed { s with regs := s.regs.write rA r }) ∧
      exec flagged s = .next (completed
        { s with regs := s.regs.write rA r, flags := { s.flags with z := decide (r = 0#32), n := r.getLsbD 31 } }) := by
  refine ⟨?_, ?_, ?_, ?_⟩
  · rw [encode_plain, encodeGroup2]
  · rw [encode_flagged, encodeGroup2]
  · rw [exec_plain, State.writeLogic_false, State.setReg_retire_eq_completed]
  · rw [exec_flagged, State.writeLogic_true_retire_eq_completed]

end Sys2Proof.Machine

open Sys2Proof.Machine

/-- Settles O35, row by row of its list: each row's opcode is the one the encoder writes for both forms, and its result
is the one both instructions' equations name. -/
theorem moveAndLogicForms : Obligations.MoveAndLogicForms := by
  intro s rA rB
  simp only [List.forall_mem_cons, List.not_mem_nil, false_implies, implies_true, and_true]
  refine ⟨?cpy, ?and, ?orr, ?xor⟩
  case cpy => exact group2_logic_encodings_and_results rfl rfl (exec_cpy s rA rB) (exec_cpyF s rA rB)
  case and => exact group2_logic_encodings_and_results rfl rfl (exec_and s rA rB) (exec_andF s rA rB)
  case orr => exact group2_logic_encodings_and_results rfl rfl (exec_orr s rA rB) (exec_orrF s rA rB)
  case xor => exact group2_logic_encodings_and_results rfl rfl (exec_xor s rA rB) (exec_xorF s rA rB)

end

section
/-! SUPPORT. The relative branches of group 3: what each instruction does, as an equation, and the encoding and the whole
next state that all but `bl` share. -/

namespace Sys2Proof.Machine

/-! One equation per instruction, and the encoding of `bl` -/

theorem exec_bl (s : State) (imm : BitVec 9) :
    exec (.bl imm) s = .next ((s.jump (s.pc + s.imm9 imm + 2#32)).setReg .lr (s.pc + 2#32)) := rfl

/-- The halfword `011i iiii iiii 0000` of `bl` (R107). -/
theorem encode_bl (imm : BitVec 9) : encode (.bl imm) = [0b011#3 ++ imm ++ 0x0#4] := rfl

theorem exec_bra (s : State) (imm : BitVec 9) :
    exec (.bra imm) s = .next (s.branch true (s.imm9 imm)) := rfl

theorem exec_beq (s : State) (imm : BitVec 9) :
    exec (.beq imm) s = .next (s.branch s.flags.z (s.imm9 imm)) := rfl

theorem exec_bne (s : State) (imm : BitVec 9) :
    exec (.bne imm) s = .next (s.branch (!s.flags.z) (s.imm9 imm)) := rfl

theorem exec_bmi (s : State) (imm : BitVec 9) :
    exec (.bmi imm) s = .next (s.branch s.flags.n (s.imm9 imm)) := rfl

theorem exec_bpl (s : State) (imm : BitVec 9) :
    exec (.bpl imm) s = .next (s.branch (!s.flags.n) (s.imm9 imm)) := rfl

theorem exec_bvs (s : State) (imm : BitVec 9) :
    exec (.bvs imm) s = .next (s.branch s.flags.v (s.imm9 imm)) := rfl

theorem exec_bvc (s : State) (imm : BitVec 9) :
    exec (.bvc imm) s = .next (s.branch (!s.flags.v) (s.imm9 imm)) := rfl

theorem exec_bgeu (s : State) (imm : BitVec 9) :
    exec (.bgeu imm) s = .next (s.branch s.flags.c (s.imm9 imm)) := rfl

theorem exec_bltu (s : State) (imm : BitVec 9) :
    exec (.bltu imm) s = .next (s.branch (!s.flags.c) (s.imm9 imm)) := rfl

theorem exec_bgtu (s : State) (imm : BitVec 9) :
    exec (.bgtu imm) s = .next (s.branch (s.flags.c && !s.flags.z) (s.imm9 imm)) := rfl

theorem exec_bleu (s : State) (imm : BitVec 9) :
    exec (.bleu imm) s = .next (s.branch (!s.flags.c || s.flags.z) (s.imm9 imm)) := rfl

theorem exec_bges (s : State) (imm : BitVec 9) :
    exec (.bges imm) s = .next (s.branch (!(s.flags.n ^^ s.flags.v)) (s.imm9 imm)) := rfl

theorem exec_blts (s : State) (imm : BitVec 9) :
    exec (.blts imm) s = .next (s.branch (s.flags.n ^^ s.flags.v) (s.imm9 imm)) := rfl

theorem exec_bgts (s : State) (imm : BitVec 9) :
    exec (.bgts imm) s = .next (s.branch (!(s.flags.n ^^ s.flags.v) && !s.flags.z) (s.imm9 imm)) := rfl

theorem exec_bles (s : State) (imm : BitVec 9) :
    exec (.bles imm) s = .next (s.branch ((s.flags.n ^^ s.flags.v) || s.flags.z) (s.imm9 imm)) := rfl

/-! What they share -/

/-- A branch is a transfer to `pc + imm + 2` where it is taken, and goes on where not (R222). -/
theorem State.branch_eq (s : State) (taken : Bool) (imm : Word) :
    s.branch taken imm = if taken then transferred s (s.pc + imm + 2#32) else completed s := by
  rw [State.branch, transferred_eq_jump, completed_eq_retire]

/-- A general register may as well be written before a transfer as after it: neither reads what the other writes. -/
theorem State.jump_setReg_eq_transferred (s : State) (t : Word) (i : Reg) (v : Word) :
    (s.jump t).setReg i v = transferred { s with regs := s.regs.write i v } t :=
  (transferred_eq_jump (s.setReg i v) t).symm

/-- The halfword `011i iiii iiii oooo` (R107), and the state after a branch that is taken where `taken` says so. -/
theorem group3_encoding_and_branch {i : Instr} {o : BitVec 4} {imm : BitVec 9} {s : State} {taken : Bool}
    (hencode : encode i = encodeGroup3 o imm) (hexec : exec i s = .next (s.branch taken (s.imm9 imm))) :
    encode i = [0b011#3 ++ imm ++ o] ∧
      exec i s = .next (if taken then transferred s (s.pc + s.imm9 imm + 2#32) else completed s) :=
  ⟨by rw [hencode, encodeGroup3], by rw [hexec, State.branch_eq]⟩

end Sys2Proof.Machine

open Sys2Proof.Machine

/-- Settles O38, row by row of its list: each row's opcode is the one the encoder writes, and its flag is the one its
instruction's equation branches on. -/
theorem branchesOnOneFlag : Obligations.BranchesOnOneFlag := by
  intro s imm
  simp only [List.forall_mem_cons, List.not_mem_nil, false_implies, implies_true, and_true]
  refine ⟨?beq, ?bne, ?bmi, ?bpl, ?bvs, ?bvc, ?bgeu, ?bltu⟩
  case beq => exact group3_encoding_and_branch rfl (exec_beq s imm)
  case bne => exact group3_encoding_and_branch rfl (exec_bne s imm)
  case bmi => exact group3_encoding_and_branch rfl (exec_bmi s imm)
  case bpl => exact group3_encoding_and_branch rfl (exec_bpl s imm)
  case bvs => exact group3_encoding_and_branch rfl (exec_bvs s imm)
  case bvc => exact group3_encoding_and_branch rfl (exec_bvc s imm)
  case bgeu => exact group3_encoding_and_branch rfl (exec_bgeu s imm)
  case bltu => exact group3_encoding_and_branch rfl (exec_bltu s imm)

/-- Settles O39, row by row of its list: each row's opcode is the one the encoder writes, and its condition is the one
its instruction's equation branches on. -/
theorem branchesOnSeveralFlags : Obligations.BranchesOnSeveralFlags := by
  intro s imm
  simp only [List.forall_mem_cons, List.not_mem_nil, false_implies, implies_true, and_true]
  refine ⟨?bgtu, ?bleu, ?bges, ?blts, ?bgts, ?bles⟩
  case bgtu => exact group3_encoding_and_branch rfl (exec_bgtu s imm)
  case bleu => exact group3_encoding_and_branch rfl (exec_bleu s imm)
  case bges => exact group3_encoding_and_branch rfl (exec_bges s imm)
  case blts => exact group3_encoding_and_branch rfl (exec_blts s imm)
  case bgts => exact group3_encoding_and_branch rfl (exec_bgts s imm)
  case bles => exact group3_encoding_and_branch rfl (exec_bles s imm)

/-- Settles O40: `bra` is the branch whose condition always holds; `bl` writes `lr` besides its transfer, and both
addresses are formed from the state before it. -/
theorem branchAlwaysAndBranchAndLink : Obligations.BranchAlwaysAndBranchAndLink := by
  intro s imm
  obtain ⟨bra_encoding, bra_next⟩ := group3_encoding_and_branch (o := 0x1#4) rfl (exec_bra s imm)
  refine ⟨?bl_encoding, bra_encoding, ?bl_next, ?bra_next⟩
  case bl_encoding => exact encode_bl imm
  case bl_next => rw [exec_bl, State.jump_setReg_eq_transferred]
  case bra_next => rw [bra_next, if_pos rfl]

end

section
/-! SUPPORT. The multiplications of group 4: what each instruction does, as an equation, the exact products as bit
vectors, and the halfword and the whole next state that several share. -/

namespace Sys2Proof.Machine

/-! One equation per instruction -/

theorem exec_mul (s : State) (rA rB : Reg) :
    exec (.mul rA rB) s = .next (s.setReg rA (s.reg rA * s.reg rB)).retire := rfl

theorem exec_lumul (s : State) (rA rB : Reg) :
    exec (.lumul rA rB) s = .next (s.setHilo (BitVec.ofNat 64 ((s.reg rA).toNat * (s.reg rB).toNat))).retire := rfl

theorem exec_lsmul (s : State) (rA rB : Reg) :
    exec (.lsmul rA rB) s = .next (s.setHilo (BitVec.ofInt 64 ((s.reg rA).toInt * (s.reg rB).toInt))).retire := rfl

/-! The products in exact numbers -/

/-- The word product is the exact one modulo 2^32 (R281). -/
theorem mul_eq_ofNat_toNat_mul (x y : Word) : x * y = BitVec.ofNat 32 (x.toNat * y.toNat) := by
  rw [BitVec.ofNat_mul, BitVec.ofNat_toNat, BitVec.ofNat_toNat, BitVec.setWidth_eq, BitVec.setWidth_eq]

/-- The unsigned product of two words is below 2^64 (R286). -/
theorem toNat_ofNat_toNat_mul (x y : Word) : (BitVec.ofNat 64 (x.toNat * y.toNat)).toNat = x.toNat * y.toNat := by
  have product_lt : x.toNat * y.toNat < 2 ^ 32 * 2 ^ 32 := Nat.mul_lt_mul'' x.isLt y.isLt
  rw [BitVec.toNat_ofNat]
  exact Nat.mod_eq_of_lt product_lt

/-- The signed product of two words lies between -2^62 and 2^62, so 64 bits hold it (R287). -/
theorem toInt_ofInt_toInt_mul (x y : Word) : (BitVec.ofInt 64 (x.toInt * y.toInt)).toInt = x.toInt * y.toInt := by
  have le_product : -2 ^ 62 ≤ x.toInt * y.toInt := BitVec.le_toInt_mul_toInt
  have product_le : x.toInt * y.toInt ≤ 2 ^ 62 := BitVec.toInt_mul_toInt_le
  exact BitVec.toInt_ofInt_eq_self (by decide) (by omega) (by omega)

/-! What they share -/

/-- The halfword `100o oooo bbbb aaaa` (R108). -/
theorem encodeGroup4_eq (o : BitVec 5) (a b : BitVec 4) : encodeGroup4 o a b = [0b100#3 ++ o ++ b ++ a] := rfl

/-- Writing `hi` and `lo` and going on changes those two, `pc` and the prefix state (R38, R146). -/
theorem State.setHilo_retire_eq_completed (s : State) (r : DWord) :
    (s.setHilo r).retire = completed { s with hi := r.extractLsb' 32 32, lo := r.extractLsb' 0 32 } :=
  (completed_eq_retire (s.setHilo r)).symm

/-- What an instruction that puts a 64-bit value in the pair leaves there is the whole value, its upper word in `hi`. -/
theorem exists_hi_lo_of_exec_setHilo {i : Instr} {s : State} {r : DWord}
    (hexec : exec i s = .next (s.setHilo r).retire) :
    ∃ h l : Word, exec i s = .next (completed { s with hi := h, lo := l }) ∧ h ++ l = r :=
  ⟨r.extractLsb' 32 32, r.extractLsb' 0 32, by rw [hexec, State.setHilo_retire_eq_completed],
    BitVec.extractLsb'_append_extractLsb'⟩

end Sys2Proof.Machine

open Sys2Proof.Machine

/-- Settles O49: `mul` writes the word product; the two long products fit in 64 bits, and the pair holds all of them. -/
theorem multiplicationsAreExact : Obligations.MultiplicationsAreExact := by
  intro s rA rB
  refine ⟨encodeGroup4_eq _ _ _, encodeGroup4_eq _ _ _, encodeGroup4_eq _ _ _, ?mul, ?lumul, ?lsmul⟩
  case mul => rw [exec_mul, mul_eq_ofNat_toNat_mul, State.setReg_retire_eq_completed]
  case lumul =>
    obtain ⟨h, l, next, pair⟩ := exists_hi_lo_of_exec_setHilo (exec_lumul s rA rB)
    exact ⟨h, l, next, by rw [← toNat_append_eq, pair, toNat_ofNat_toNat_mul]⟩
  case lsmul =>
    obtain ⟨h, l, next, pair⟩ := exists_hi_lo_of_exec_setHilo (exec_lsmul s rA rB)
    exact ⟨h, l, next, by rw [pair, toInt_ofInt_toInt_mul]⟩

end

section
/-! SUPPORT. The decoder: what it answers for each group, in the fields of the halfword. -/

namespace Sys2Proof

@[simp] theorem Reg.ofField_field (r : Reg) : Reg.ofField r.field = r := by cases r <;> rfl

theorem decodeHalf_of_group0 {h : Halfword} (group : h.extractLsb' 13 3 = 0b000#3) :
    decodeHalf h =
      if h.getLsbD 12 = false then .ok (.pre (h.extractLsb' 0 12))
      else if isLpre h = true then .error .truncated else .error .reservedGroup0 := by
  simp [decodeHalf, group]

theorem decodeHalf_of_group1 {h : Halfword} (group : h.extractLsb' 13 3 = 0b001#3) :
    decodeHalf h =
      .ok (decodeGroup1 (h.extractLsb' 4 4) (Reg.ofField (h.extractLsb' 0 4)) (h.extractLsb' 8 5)) := by
  simp [decodeHalf, group]

theorem decodeHalf_of_group2 {h : Halfword} (group : h.extractLsb' 13 3 = 0b010#3) :
    decodeHalf h =
      decodeGroup2 (h.getLsbD 12) (h.extractLsb' 8 4) (Reg.ofField (h.extractLsb' 0 4))
        (Reg.ofField (h.extractLsb' 4 4)) := by
  simp [decodeHalf, group]

theorem decodeHalf_of_group3 {h : Halfword} (group : h.extractLsb' 13 3 = 0b011#3) :
    decodeHalf h = .ok (decodeGroup3 (h.extractLsb' 0 4) (h.extractLsb' 4 9)) := by
  simp [decodeHalf, group]

theorem decodeHalf_of_group4 {h : Halfword} (group : h.extractLsb' 13 3 = 0b100#3) :
    decodeHalf h = decodeGroup4 (h.extractLsb' 8 5) (h.extractLsb' 0 4) (h.extractLsb' 4 4) := by
  simp [decodeHalf, group]

theorem decodeHalf_of_group5 {h : Halfword} (group : h.extractLsb' 13 3 = 0b101#3) :
    decodeHalf h =
      .ok (.ldr (Reg.ofField (h.extractLsb' 0 4)) (Reg.ofField (h.extractLsb' 4 4)) (h.extractLsb' 8 5)) := by
  simp [decodeHalf, group]

theorem decodeHalf_of_group6 {h : Halfword} (group : h.extractLsb' 13 3 = 0b110#3) :
    decodeHalf h =
      .ok (.str (Reg.ofField (h.extractLsb' 0 4)) (Reg.ofField (h.extractLsb' 4 4)) (h.extractLsb' 8 5)) := by
  simp [decodeHalf, group]

theorem decodeHalf_of_group7 {h : Halfword} (group : h.extractLsb' 13 3 = 0b111#3) :
    decodeHalf h =
      if h.extractLsb' 11 2 = 0b00#2 then
        decodeGroup7 (h.getLsbD 10) (h.extractLsb' 8 2) (Reg.ofField (h.extractLsb' 0 4))
          (Reg.ofField (h.extractLsb' 4 4))
      else .error .reservedGroup7Subgroup := by
  simp [decodeHalf, group]

/-- A halfword belongs to one of the eight groups (R101). -/
theorem group_cases (g : BitVec 3) :
    g = 0b000#3 ∨ g = 0b001#3 ∨ g = 0b010#3 ∨ g = 0b011#3 ∨ g = 0b100#3 ∨ g = 0b101#3 ∨ g = 0b110#3 ∨ g = 0b111#3 := by
  revert g
  decide

/-- A first halfword of `lpre` lies in group 0 (R100). -/
theorem group_of_isLpre {h : Halfword} (lpre : isLpre h = true) :
    h.extractLsb' 13 3 = 0b000#3 ∧ h.getLsbD 12 = true := by
  have bits : h.extractLsb' 11 5 = 0b00010#5 := by simpa [isLpre] using lpre
  have bit (k : Nat) (hk : k < 5) : h.getLsbD (11 + k) = (0b00010#5).getLsbD k := by
    rw [← bits, BitVec.getLsbD_extractLsb', decide_eq_true hk, Bool.true_and]
  refine ⟨BitVec.eq_of_getLsbD_eq fun k hk => ?_, bit 1 (by decide)⟩
  rw [BitVec.getLsbD_extractLsb', decide_eq_true hk, Bool.true_and]
  interval_cases k
  · exact bit 2 (by decide)
  · exact bit 3 (by decide)
  · exact bit 4 (by decide)

/-- A halfword that is an instruction by itself begins no `lpre`. -/
theorem isLpre_of_decodeHalf_eq_ok {h : Halfword} {i : Instr} (hi : decodeHalf h = .ok i) : isLpre h = false := by
  by_contra lpre
  rw [Bool.not_eq_false] at lpre
  obtain ⟨group, bit⟩ := group_of_isLpre lpre
  rw [decodeHalf_of_group0 group, bit] at hi
  simp [lpre] at hi

/-- What the decoder answers for the bytes of a halfword that is an instruction by itself (R77, R100). -/
theorem decode_of_decodeHalf {b0 b1 : Byte} {rest : List Byte} {i : Instr} (hi : decodeHalf (b0 ++ b1) = .ok i) :
    decode (b0 :: b1 :: rest) = .ok (i, rest) := by
  simp [decode, isLpre_of_decodeHalf_eq_ok hi, hi]

end Sys2Proof
end

section
/-! SUPPORT. The encoder: the fields of a halfword that the patterns of R102 to R110 build, and what the decoder answers
for it. -/

namespace Sys2Proof

/-- The bits of a concatenation above the right part are those of the left part. -/
theorem extractLsb'_append_high {n m : Nat} (x : BitVec n) (y : BitVec m) (k len : Nat) :
    (x ++ y).extractLsb' (k + m) len = x.extractLsb' k len := by
  rw [BitVec.extractLsb'_append_eq_of_le (Nat.le_add_left m k), Nat.add_sub_cancel]

theorem getLsbD_append_high {n m : Nat} (x : BitVec n) (y : BitVec m) (k : Nat) :
    (x ++ y).getLsbD (k + m) = x.getLsbD k := by
  rw [BitVec.getLsbD_append, if_neg (by omega), Nat.add_sub_cancel]

/-- The fields of `gggx xxxx yyyy zzzz`, the layout of groups 1, 4, 5 and 6. -/
theorem fields_of_wide_layout (g : BitVec 3) (x : BitVec 5) (y z : BitVec 4) :
    let h : Halfword := g ++ x ++ y ++ z
    h.extractLsb' 13 3 = g ∧ h.extractLsb' 8 5 = x ∧ h.extractLsb' 4 4 = y ∧ h.extractLsb' 0 4 = z := by
  refine ⟨?_, ?_, ?_, BitVec.extractLsb'_append_eq_right⟩
  · rw [extractLsb'_append_high _ z 9, extractLsb'_append_high _ y 5, BitVec.extractLsb'_append_eq_left]
  · rw [extractLsb'_append_high _ z 4, extractLsb'_append_high _ y 0, BitVec.extractLsb'_append_eq_right]
  · rw [extractLsb'_append_high _ z 0, BitVec.extractLsb'_append_eq_right]

theorem decodeHalf_group1 (imm : BitVec 5) (o a : BitVec 4) :
    decodeHalf (0b001#3 ++ imm ++ o ++ a) = .ok (decodeGroup1 o (Reg.ofField a) imm) := by
  obtain ⟨hg, hx, hy, hz⟩ := fields_of_wide_layout 0b001#3 imm o a
  rw [decodeHalf_of_group1 hg, hx, hy, hz]

theorem decodeHalf_group4 (o : BitVec 5) (a b : BitVec 4) :
    decodeHalf (0b100#3 ++ o ++ b ++ a) = decodeGroup4 o a b := by
  obtain ⟨hg, hx, hy, hz⟩ := fields_of_wide_layout 0b100#3 o b a
  rw [decodeHalf_of_group4 hg, hx, hy, hz]

theorem decodeHalf_group5 (imm : BitVec 5) (a b : BitVec 4) :
    decodeHalf (0b101#3 ++ imm ++ b ++ a) = .ok (.ldr (Reg.ofField a) (Reg.ofField b) imm) := by
  obtain ⟨hg, hx, hy, hz⟩ := fields_of_wide_layout 0b101#3 imm b a
  rw [decodeHalf_of_group5 hg, hx, hy, hz]

theorem decodeHalf_group6 (imm : BitVec 5) (a b : BitVec 4) :
    decodeHalf (0b110#3 ++ imm ++ b ++ a) = .ok (.str (Reg.ofField a) (Reg.ofField b) imm) := by
  obtain ⟨hg, hx, hy, hz⟩ := fields_of_wide_layout 0b110#3 imm b a
  rw [decodeHalf_of_group6 hg, hx, hy, hz]

theorem decodeHalf_pre (imm : BitVec 12) : decodeHalf (0b0000#4 ++ imm) = .ok (.pre imm) := by
  have group : (0b0000#4 ++ imm : Halfword).extractLsb' 13 3 = 0b000#3 := by
    rw [extractLsb'_append_high _ imm 1]; rfl
  have bit : (0b0000#4 ++ imm : Halfword).getLsbD 12 = false := getLsbD_append_high _ imm 0
  have field : (0b0000#4 ++ imm : Halfword).extractLsb' 0 12 = imm := BitVec.extractLsb'_append_eq_right
  rw [decodeHalf_of_group0 group, if_pos bit, field]

theorem decodeHalf_group2 (f : BitVec 1) (o a b : BitVec 4) :
    decodeHalf (0b010#3 ++ f ++ o ++ b ++ a) = decodeGroup2 (f.getLsbD 0) o (Reg.ofField a) (Reg.ofField b) := by
  have group : (0b010#3 ++ f ++ o ++ b ++ a : Halfword).extractLsb' 13 3 = 0b010#3 := by
    rw [extractLsb'_append_high _ a 9, extractLsb'_append_high _ b 5, extractLsb'_append_high _ o 1,
      BitVec.extractLsb'_append_eq_left]
  have bit : (0b010#3 ++ f ++ o ++ b ++ a : Halfword).getLsbD 12 = f.getLsbD 0 := by
    rw [getLsbD_append_high _ a 8, getLsbD_append_high _ b 4, getLsbD_append_high _ o 0, BitVec.getLsbD_append]
    rfl
  have opcode : (0b010#3 ++ f ++ o ++ b ++ a : Halfword).extractLsb' 8 4 = o := by
    rw [extractLsb'_append_high _ a 4, extractLsb'_append_high _ b 0, BitVec.extractLsb'_append_eq_right]
  have second : (0b010#3 ++ f ++ o ++ b ++ a : Halfword).extractLsb' 4 4 = b := by
    rw [extractLsb'_append_high _ a 0, BitVec.extractLsb'_append_eq_right]
  have first : (0b010#3 ++ f ++ o ++ b ++ a : Halfword).extractLsb' 0 4 = a := BitVec.extractLsb'_append_eq_right
  rw [decodeHalf_of_group2 group, bit, opcode, second, first]

theorem decodeHalf_group3 (imm : BitVec 9) (o : BitVec 4) :
    decodeHalf (0b011#3 ++ imm ++ o) = .ok (decodeGroup3 o imm) := by
  have group : (0b011#3 ++ imm ++ o : Halfword).extractLsb' 13 3 = 0b011#3 := by
    rw [extractLsb'_append_high _ o 9, BitVec.extractLsb'_append_eq_left]
  have field : (0b011#3 ++ imm ++ o : Halfword).extractLsb' 4 9 = imm := by
    rw [extractLsb'_append_high _ o 0, BitVec.extractLsb'_append_eq_right]
  have opcode : (0b011#3 ++ imm ++ o : Halfword).extractLsb' 0 4 = o := BitVec.extractLsb'_append_eq_right
  rw [decodeHalf_of_group3 group, field, opcode]

theorem decodeHalf_group7 (w : BitVec 1) (o : BitVec 2) (a b : BitVec 4) :
    decodeHalf (0b11100#5 ++ w ++ o ++ b ++ a) = decodeGroup7 (w.getLsbD 0) o (Reg.ofField a) (Reg.ofField b) := by
  have group : (0b11100#5 ++ w ++ o ++ b ++ a : Halfword).extractLsb' 13 3 = 0b111#3 := by
    rw [extractLsb'_append_high _ a 9, extractLsb'_append_high _ b 5, extractLsb'_append_high _ o 3,
      extractLsb'_append_high _ w 2]
    rfl
  have subgroup : (0b11100#5 ++ w ++ o ++ b ++ a : Halfword).extractLsb' 11 2 = 0b00#2 := by
    rw [extractLsb'_append_high _ a 7, extractLsb'_append_high _ b 3, extractLsb'_append_high _ o 1,
      extractLsb'_append_high _ w 0]
    rfl
  have bit : (0b11100#5 ++ w ++ o ++ b ++ a : Halfword).getLsbD 10 = w.getLsbD 0 := by
    rw [getLsbD_append_high _ a 6, getLsbD_append_high _ b 2, getLsbD_append_high _ o 0, BitVec.getLsbD_append]
    rfl
  have opcode : (0b11100#5 ++ w ++ o ++ b ++ a : Halfword).extractLsb' 8 2 = o := by
    rw [extractLsb'_append_high _ a 4, extractLsb'_append_high _ b 0, BitVec.extractLsb'_append_eq_right]
  have second : (0b11100#5 ++ w ++ o ++ b ++ a : Halfword).extractLsb' 4 4 = b := by
    rw [extractLsb'_append_high _ a 0, BitVec.extractLsb'_append_eq_right]
  have first : (0b11100#5 ++ w ++ o ++ b ++ a : Halfword).extractLsb' 0 4 = a := BitVec.extractLsb'_append_eq_right
  rw [decodeHalf_of_group7 group, if_pos subgroup, bit, opcode, second, first]

/-! The instructions of one halfword -/

/-- The encoder writes one halfword for the instruction, and the decoder reads it back from that. -/
def Instr.DecodesBack (i : Instr) : Prop := ∃ h, encode i = [h] ∧ decodeHalf h = .ok i

theorem Instr.DecodesBack.of_group1 {i : Instr} {o : BitVec 4} {rA : Reg} {imm : BitVec 5}
    (hencode : encode i = encodeGroup1 o rA.field imm) (hdecode : decodeGroup1 o rA imm = i) : i.DecodesBack :=
  ⟨_, hencode, by rw [decodeHalf_group1, Reg.ofField_field, hdecode]⟩

theorem Instr.DecodesBack.of_group2 {i : Instr} {f : BitVec 1} {o : BitVec 4} {rA rB : Reg}
    (hencode : encode i = encodeGroup2 f o rA rB) (hdecode : decodeGroup2 (f.getLsbD 0) o rA rB = .ok i) :
    i.DecodesBack :=
  ⟨_, hencode, by rw [decodeHalf_group2, Reg.ofField_field, Reg.ofField_field, hdecode]⟩

theorem Instr.DecodesBack.of_group3 {i : Instr} {o : BitVec 4} {imm : BitVec 9}
    (hencode : encode i = encodeGroup3 o imm) (hdecode : decodeGroup3 o imm = i) : i.DecodesBack :=
  ⟨_, hencode, (decodeHalf_group3 imm o).trans (congrArg _ hdecode)⟩

theorem Instr.DecodesBack.of_group4 {i : Instr} {o : BitVec 5} {a b : BitVec 4}
    (hencode : encode i = encodeGroup4 o a b) (hdecode : decodeGroup4 o a b = .ok i) : i.DecodesBack :=
  ⟨_, hencode, (decodeHalf_group4 o a b).trans hdecode⟩

theorem Instr.DecodesBack.of_group7 {i : Instr} {w : BitVec 1} {o : BitVec 2} {rA rB : Reg}
    (hencode : encode i = encodeGroup7 w o rA rB) (hdecode : decodeGroup7 (w.getLsbD 0) o rA rB = .ok i) :
    i.DecodesBack :=
  ⟨_, hencode, by rw [decodeHalf_group7, Reg.ofField_field, Reg.ofField_field, hdecode]⟩

/-- Every instruction but `lpre` is one halfword, which the decoder reads back (R100, R118). -/
theorem Instr.decodesBack_of_wellFormed {i : Instr} (hwf : i.wellFormed = true) (hlpre : ∀ imm, i ≠ .lpre imm) :
    i.DecodesBack := by
  cases i with
  | pre imm => exact ⟨_, rfl, decodeHalf_pre imm⟩
  | lpre imm => exact absurd rfl (hlpre imm)
  | addImm rA imm | addPcImm rA imm | addSpImm rA imm | addFpImm rA imm | cmpImm rA imm | cpyImm rA imm
  | lslImm rA imm | lsrImm rA imm | asrImm rA imm | andImm rA imm | orrImm rA imm | xorImm rA imm | zeImm rA imm
  | seImm rA imm | swiRegImm rA imm => exact .of_group1 rfl rfl
  | swiImm imm => exact .of_group1 (rA := .r0) rfl rfl
  | add rA rB | addF rA rB | sub rA rB | subF rA rB | addSp rA rB | addSpF rA rB | addFp rA rB | addFpF rA rB
  | cmp rA rB | cpy rA rB | cpyF rA rB | lsl rA rB | lslF rA rB | lsr rA rB | lsrF rA rB | asr rA rB | asrF rA rB
  | and rA rB | andF rA rB | orr rA rB | orrF rA rB | xor rA rB | xorF rA rB | adc rA rB | adcF rA rB | sbc rA rB
  | sbcF rA rB => exact .of_group2 rfl rfl
  | bl imm | bra imm | beq imm | bne imm | bmi imm | bpl imm | bvs imm | bvc imm | bgeu imm | bltu imm | bgtu imm
  | bleu imm | bges imm | blts imm | bgts imm | bles imm => exact .of_group3 rfl rfl
  | jmpIra | reti | ei | di => exact .of_group4 rfl rfl
  | jl rA | jmp rA | index rA => exact .of_group4 rfl (by simp [decodeGroup4])
  | cpyFromS rA sC => exact .of_group4 rfl (by simpa [decodeGroup4, Instr.wellFormed] using hwf)
  | cpyToS sA rB | pushS sA rB | popS sA rB =>
    exact .of_group4 rfl (by simpa [decodeGroup4, Instr.wellFormed] using hwf)
  | cpySS sA sB =>
    exact .of_group4 rfl (by simpa [decodeGroup4, Instr.wellFormed] using hwf)
  | push rA rB | pop rA rB | mul rA rB | udiv rA rB | sdiv rA rB | umod rA rB | smod rA rB | lumul rA rB | lsmul rA rB
  | ludiv rA rB | lsdiv rA rB | lumod rA rB | lsmod rA rB | ldub rA rB | ldsb rA rB | lduh rA rB | ldsh rA rB
  | stb rA rB | sth rA rB => exact .of_group4 rfl (by simp [decodeGroup4])
  | ldr rA rB imm => exact ⟨_, rfl, by rw [decodeHalf_group5, Reg.ofField_field, Reg.ofField_field]⟩
  | str rA rB imm => exact ⟨_, rfl, by rw [decodeHalf_group6, Reg.ofField_field, Reg.ofField_field]⟩
  | cmpb rA rB | cmph rA rB | lsrb rA rB | lsrh rA rB | asrb rA rB | asrh rA rB => exact .of_group7 rfl rfl

/-- The bytes of the halfword with its two bytes put together again (R77). -/
theorem append_halfBytes (h : Halfword) : h.extractLsb' 8 8 ++ h.extractLsb' 0 8 = h :=
  BitVec.extractLsb'_append_extractLsb'

/-- What the decoder answers for the four bytes of an `lpre` (R100, R104). -/
theorem decode_encodeBytes_lpre (imm : BitVec 27) (rest : List Byte) :
    decode (encodeBytes (.lpre imm) ++ rest) = .ok (.lpre imm, rest) := by
  have opcode : isLpre (0b00010#5 ++ imm.extractLsb' 16 11) = true := by
    rw [isLpre, BitVec.extractLsb'_append_eq_left]; rfl
  have high : (0b00010#5 ++ imm.extractLsb' 16 11 : Halfword).extractLsb' 0 11 = imm.extractLsb' 16 11 :=
    BitVec.extractLsb'_append_eq_right
  have low : imm.extractLsb' 16 11 ++ imm.extractLsb' 0 16 = imm := BitVec.extractLsb'_append_extractLsb'
  simp only [encodeBytes, encode, halfBytes, List.flatMap_cons, List.flatMap_nil, List.append_nil, List.cons_append,
    List.nil_append, decode, append_halfBytes, opcode, if_true, high, low]

end Sys2Proof

open Sys2Proof

/-- Settles O1: an `lpre` by its two halfwords, every other instruction by its one. -/
theorem decodeGivesBackWhatWasEncoded : Obligations.DecodeGivesBackWhatWasEncoded := by
  intro i rest hwf
  by_cases hlpre : ∃ imm, i = .lpre imm
  case pos =>
    obtain ⟨imm, rfl⟩ := hlpre
    exact decode_encodeBytes_lpre imm rest
  case neg =>
    obtain ⟨h, hencode, hdecode⟩ := Instr.decodesBack_of_wellFormed hwf (fun imm e => hlpre ⟨imm, e⟩)
    rw [← append_halfBytes h] at hdecode
    rw [encodeBytes, hencode]
    exact decode_of_decodeHalf hdecode

end

section
/-! SUPPORT. What the decoder accepts and what it rejects, group by group. -/

namespace Sys2Proof

/-! Accepted: a well-formed instruction of one halfword -/

/-- What holds of an instruction that one halfword decodes to: it is well formed, and no `lpre` (R49, R100). -/
def Instr.FromHalfword (i : Instr) : Prop := i.wellFormed = true ∧ ∀ imm, i ≠ .lpre imm

theorem decodeGroup1_fromHalfword (o : BitVec 4) (rA : Reg) (imm : BitVec 5) :
    (decodeGroup1 o rA imm).FromHalfword := by
  unfold decodeGroup1
  split <;> exact ⟨rfl, nofun⟩

theorem decodeGroup2_fromHalfword {f : Bool} {o : BitVec 4} {rA rB : Reg} {i : Instr}
    (h : decodeGroup2 f o rA rB = .ok i) : i.FromHalfword := by
  unfold decodeGroup2 at h
  split at h <;> cases f <;> cases h <;> exact ⟨rfl, nofun⟩

theorem decodeGroup3_fromHalfword (o : BitVec 4) (imm : BitVec 9) : (decodeGroup3 o imm).FromHalfword := by
  unfold decodeGroup3
  split <;> exact ⟨rfl, nofun⟩

theorem decodeGroup4_fromHalfword {o : BitVec 5} {a b : BitVec 4} {i : Instr}
    (h : decodeGroup4 o a b = .ok i) : i.FromHalfword := by
  unfold decodeGroup4 at h
  split at h
  case h_5 | h_6 | h_7 | h_13 | h_14 =>
    split at h
    · next defined => cases h; exact ⟨defined, nofun⟩
    · cases h
  case h_32 => cases h
  all_goals cases h; exact ⟨rfl, nofun⟩

theorem decodeGroup7_fromHalfword {w : Bool} {o : BitVec 2} {rA rB : Reg} {i : Instr}
    (h : decodeGroup7 w o rA rB = .ok i) : i.FromHalfword := by
  unfold decodeGroup7 at h
  split at h <;> cases w <;> cases h <;> exact ⟨rfl, nofun⟩

theorem decodeHalf_fromHalfword {h : Halfword} {i : Instr} (hi : decodeHalf h = .ok i) : i.FromHalfword := by
  rcases group_cases (h.extractLsb' 13 3) with g | g | g | g | g | g | g | g
  · rw [decodeHalf_of_group0 g] at hi
    split at hi
    · cases hi; exact ⟨rfl, nofun⟩
    · split at hi <;> cases hi
  · rw [decodeHalf_of_group1 g] at hi
    cases hi
    exact decodeGroup1_fromHalfword _ _ _
  · exact decodeGroup2_fromHalfword (decodeHalf_of_group2 g ▸ hi)
  · rw [decodeHalf_of_group3 g] at hi
    cases hi
    exact decodeGroup3_fromHalfword _ _
  · exact decodeGroup4_fromHalfword (decodeHalf_of_group4 g ▸ hi)
  · rw [decodeHalf_of_group5 g] at hi
    cases hi
    exact ⟨rfl, nofun⟩
  · rw [decodeHalf_of_group6 g] at hi
    cases hi
    exact ⟨rfl, nofun⟩
  · rw [decodeHalf_of_group7 g] at hi
    split at hi
    · exact decodeGroup7_fromHalfword hi
    · cases hi

/-- The two ways for bytes to decode (R100): four bytes that are an `lpre`, or two that are another instruction. -/
theorem decode_eq_ok {bs rest : List Byte} {i : Instr} (h : decode bs = .ok (i, rest)) :
    (∃ b0 b1 b2 b3 imm, bs = b0 :: b1 :: b2 :: b3 :: rest ∧ i = .lpre imm) ∨
      (∃ b0 b1, bs = b0 :: b1 :: rest ∧ decodeHalf (b0 ++ b1) = .ok i) := by
  unfold decode at h
  split at h
  case h_2 => cases h
  case h_1 b0 b1 tail =>
    split at h
    case isTrue =>
      split at h
      · cases h; exact .inl ⟨_, _, _, _, _, rfl, rfl⟩
      · cases h
    case isFalse =>
      split at h
      · next hi => cases h; exact .inr ⟨b0, b1, rfl, hi⟩
      · cases h

/-! Rejected: by the opcode or by a field -/

theorem decodeGroup2_error_iff {f : Bool} {o : BitVec 4} {rA rB : Reg} :
    (∃ e, decodeGroup2 f o rA rB = .error e) ↔ 14 ≤ o.toNat := by
  unfold decodeGroup2
  split
  case h_15 => simp_all; omega
  all_goals simp [*]

theorem decodeGroup4_error_iff {o : BitVec 5} {a b : BitVec 4} :
    (∃ e, decodeGroup4 o a b = .error e) ↔
      o = 0x1F#5 ∨ (o = 0x04#5 ∧ SField.defined b = false) ∨ (o = 0x05#5 ∧ SField.defined a = false) ∨
        (o = 0x06#5 ∧ (SField.defined b = false ∨ SField.defined a = false)) ∨
        ((o = 0x0C#5 ∨ o = 0x0D#5) ∧ SField.defined a = false) := by
  simp only [← BitVec.toNat_inj]
  unfold decodeGroup4
  split
  case h_5 => cases SField.defined b <;> simp [*]
  case h_6 | h_13 | h_14 => cases SField.defined a <;> simp [*]
  case h_7 => cases SField.defined a <;> cases SField.defined b <;> simp [*]
  case h_32 => simp_all; omega
  all_goals simp [*]

theorem decodeGroup7_error_iff {w : Bool} {o : BitVec 2} {rA rB : Reg} :
    (∃ e, decodeGroup7 w o rA rB = .error e) ↔ o = 3#2 := by
  rw [← BitVec.toNat_inj]
  unfold decodeGroup7
  split
  case h_4 => simp_all; omega
  all_goals simp [*]
/-! The reserved encodings, in the high byte of the halfword and in the two register fields -/

/-- The reserved encodings of R121 to R126, by the high byte of the halfword and by whether its fields `a` and `b` are
defined special-purpose registers. -/
def reservedByHighByte (t : BitVec 8) (a b : Bool) : Bool :=
  decide ((0x18#8 ≤ t ∧ t ≤ 0x1F#8) ∨ t &&& 0xEE#8 = 0x4E#8 ∨ t &&& 0xFF#8 = 0x9F#8 ∨ 0xE8#8 ≤ t ∨
    t &&& 0xFB#8 = 0xE3#8 ∨ (t &&& 0xFF#8 = 0x84#8 ∧ b = false) ∨ (t &&& 0xFF#8 = 0x85#8 ∧ a = false) ∨
    (t &&& 0xFF#8 = 0x86#8 ∧ (b = false ∨ a = false)) ∨ (t &&& 0xFE#8 = 0x8C#8 ∧ a = false))

/-- A mask and a value with an empty low byte test the high byte alone. -/
theorem and_mask_eq_iff (h : Halfword) (m v : BitVec 8) :
    h &&& (m ++ 0#8 : Halfword) = (v ++ 0#8 : Halfword) ↔ h.extractLsb' 8 8 &&& m = v := by
  conv_lhs => rw [← append_halfBytes h]
  rw [BitVec.and_append, BitVec.and_zero, BitVec.append_left_inj]

theorem highByte_toNat (h : Halfword) : (h.extractLsb' 8 8).toNat = h.toNat / 256 := by
  have := h.isLt
  rw [BitVec.extractLsb'_toNat, Nat.shiftRight_eq_div_pow]
  omega

theorem extractLsb'_extractLsb' {w : Nat} (x : BitVec w) {start len k n : Nat} (hk : k + n ≤ len) :
    (x.extractLsb' start len).extractLsb' k n = x.extractLsb' (start + k) n := by
  refine BitVec.eq_of_getLsbD_eq fun j hj => ?_
  simp only [BitVec.getLsbD_extractLsb', decide_eq_true hj, decide_eq_true (show k + j < len by omega), Bool.true_and,
    Nat.add_assoc]

theorem extractLsb'_highByte (h : Halfword) {k n : Nat} (hk : k + n ≤ 8) :
    (h.extractLsb' 8 8).extractLsb' k n = h.extractLsb' (8 + k) n := extractLsb'_extractLsb' h hk

theorem SField.defined_eq_false_iff (k : SField) : SField.defined k = false ↔ 8 ≤ k.toNat := by
  simp [SField.defined]

/-- The masks of the statement are those of `reservedByHighByte`. -/
theorem reservedByHighByte_iff (h : Halfword) :
    reservedByHighByte (h.extractLsb' 8 8) (SField.defined (h.extractLsb' 0 4)) (SField.defined (h.extractLsb' 4 4)) =
        true ↔
      (0x1800#16 ≤ h ∧ h ≤ 0x1FFF#16) ∨
      h &&& 0xEE00#16 = 0x4E00#16 ∨
      h &&& 0xFF00#16 = 0x9F00#16 ∨
      0xE800#16 ≤ h ∨
      h &&& 0xFB00#16 = 0xE300#16 ∨
      (h &&& 0xFF00#16 = 0x8400#16 ∧ 8 ≤ (h.extractLsb' 4 4).toNat) ∨
      (h &&& 0xFF00#16 = 0x8500#16 ∧ 8 ≤ (h.extractLsb' 0 4).toNat) ∨
      (h &&& 0xFF00#16 = 0x8600#16 ∧ (8 ≤ (h.extractLsb' 4 4).toNat ∨ 8 ≤ (h.extractLsb' 0 4).toNat)) ∨
      (h &&& 0xFE00#16 = 0x8C00#16 ∧ 8 ≤ (h.extractLsb' 0 4).toNat) := by
  have group0 : (0x18#8 ≤ h.extractLsb' 8 8 ∧ h.extractLsb' 8 8 ≤ 0x1F#8) ↔ 0x1800#16 ≤ h ∧ h ≤ 0x1FFF#16 := by
    simp only [BitVec.le_def, highByte_toNat, BitVec.toNat_ofNat]
    omega
  have group7 : 0xE8#8 ≤ h.extractLsb' 8 8 ↔ 0xE800#16 ≤ h := by
    simp only [BitVec.le_def, highByte_toNat, BitVec.toNat_ofNat]
    omega
  rw [reservedByHighByte, decide_eq_true_iff, group0, group7]
  simp only [← and_mask_eq_iff, SField.defined_eq_false_iff]
  rfl

theorem reservedByHighByte_of_group0 : ∀ (t : BitVec 8) (a b : Bool), t.extractLsb' 5 3 = 0b000#3 →
    t.extractLsb' 3 5 ≠ 0b00010#5 → (reservedByHighByte t a b = true ↔ t.getLsbD 4 = true) := by decide

theorem reservedByHighByte_of_full_group : ∀ (t : BitVec 8) (a b : Bool),
    t.extractLsb' 5 3 ∈ [0b001#3, 0b011#3, 0b101#3, 0b110#3] → reservedByHighByte t a b = false := by decide

theorem reservedByHighByte_of_group2 : ∀ (t : BitVec 8) (a b : Bool), t.extractLsb' 5 3 = 0b010#3 →
    (reservedByHighByte t a b = true ↔ 14 ≤ (t.extractLsb' 0 4).toNat) := by decide

theorem reservedByHighByte_of_group4 : ∀ (t : BitVec 8) (a b : Bool), t.extractLsb' 5 3 = 0b100#3 →
    (reservedByHighByte t a b = true ↔
      t.extractLsb' 0 5 = 0x1F#5 ∨ (t.extractLsb' 0 5 = 0x04#5 ∧ b = false) ∨ (t.extractLsb' 0 5 = 0x05#5 ∧ a = false) ∨
        (t.extractLsb' 0 5 = 0x06#5 ∧ (b = false ∨ a = false)) ∨
        ((t.extractLsb' 0 5 = 0x0C#5 ∨ t.extractLsb' 0 5 = 0x0D#5) ∧ a = false)) := by decide

theorem reservedByHighByte_of_group7 : ∀ (t : BitVec 8) (a b : Bool), t.extractLsb' 5 3 = 0b111#3 →
    (reservedByHighByte t a b = true ↔ (t.extractLsb' 3 2 = 0b00#2 → t.extractLsb' 0 2 = 3#2)) := by decide

/-- The decoder rejects, group by group, what the high byte and the register fields reserve. -/
theorem decodeHalf_error_iff {h : Halfword} (not_lpre : isLpre h = false) :
    (∃ e, decodeHalf h = .error e) ↔
      reservedByHighByte (h.extractLsb' 8 8) (SField.defined (h.extractLsb' 0 4))
        (SField.defined (h.extractLsb' 4 4)) = true := by
  have group : (h.extractLsb' 8 8).extractLsb' 5 3 = h.extractLsb' 13 3 := extractLsb'_highByte h (by decide)
  have full (mem : h.extractLsb' 13 3 ∈ [0b001#3, 0b011#3, 0b101#3, 0b110#3]) :=
    reservedByHighByte_of_full_group _ (SField.defined (h.extractLsb' 0 4)) (SField.defined (h.extractLsb' 4 4))
      (group ▸ mem)
  rcases group_cases (h.extractLsb' 13 3) with g | g | g | g | g | g | g | g
  · have opcode : (h.extractLsb' 8 8).extractLsb' 3 5 ≠ 0b00010#5 := by
      rw [extractLsb'_highByte h (by decide)]
      simpa [isLpre] using not_lpre
    rw [reservedByHighByte_of_group0 _ _ _ (group.trans g) opcode, decodeHalf_of_group0 g, not_lpre]
    cases bit : h.getLsbD 12 <;> simpa using bit
  · rw [full (by simp [g]), decodeHalf_of_group1 g]
    simp
  · rw [reservedByHighByte_of_group2 _ _ _ (group.trans g), extractLsb'_highByte h (by decide),
      decodeHalf_of_group2 g, decodeGroup2_error_iff]
  · rw [full (by simp [g]), decodeHalf_of_group3 g]
    simp
  · rw [reservedByHighByte_of_group4 _ _ _ (group.trans g), extractLsb'_highByte h (by decide),
      decodeHalf_of_group4 g, decodeGroup4_error_iff]
  · rw [full (by simp [g]), decodeHalf_of_group5 g]
    simp
  · rw [full (by simp [g]), decodeHalf_of_group6 g]
    simp
  · rw [reservedByHighByte_of_group7 _ _ _ (group.trans g), extractLsb'_highByte h (by decide),
      extractLsb'_highByte h (by decide), decodeHalf_of_group7 g]
    by_cases subgroup : h.extractLsb' 11 2 = 0b00#2
    · simp [subgroup, decodeGroup7_error_iff]
    · simp [subgroup]

end Sys2Proof

open Sys2Proof

/-- Settles O2, by the two ways for bytes to decode. -/
theorem decodedInstructionsAreWellFormed : Obligations.DecodedInstructionsAreWellFormed := by
  intro bs i rest h
  rcases decode_eq_ok h with ⟨b0, b1, b2, b3, imm, rfl, rfl⟩ | ⟨b0, b1, rfl, hi⟩
  · exact ⟨rfl, [b0, b1, b2, b3], rfl, rfl⟩
  · obtain ⟨wf, not_lpre⟩ := decodeHalf_fromHalfword hi
    refine ⟨wf, [b0, b1], rfl, ?_⟩
    split
    · exact absurd rfl (not_lpre _)
    · rfl

/-- Settles O3: what the decoder rejects is what the high byte and the register fields reserve, and that is what the
masks of the statement say. -/
theorem reservedHalfwordsAreExactlyThose : Obligations.ReservedHalfwordsAreExactlyThose :=
  fun h not_lpre => (decodeHalf_error_iff not_lpre).trans (reservedByHighByte_iff h)

/-- Settles O4: the pattern of each group decodes by its opcode, whatever stands in the fields that the opcode
ignores. -/
theorem unusedFieldsAreIgnored : Obligations.UnusedFieldsAreIgnored := by
  intro a b f imm
  exact ⟨decodeHalf_group1 imm 0xF#4 a, decodeHalf_group2 f 0x4#4 a b, decodeHalf_group4 0x00#5 a b,
    decodeHalf_group4 0x01#5 a b, decodeHalf_group4 0x02#5 a b, decodeHalf_group4 0x03#5 a b,
    decodeHalf_group4 0x07#5 a b, decodeHalf_group4 0x08#5 a b, decodeHalf_group4 0x09#5 a b⟩

/-- Settles O5: ten closed words, each run through the decoder. -/
theorem exampleWordsDecode : Obligations.ExampleWordsDecode := by
  unfold Obligations.ExampleWordsDecode
  decide

end

section
/-! SUPPORT. Everything an instruction that goes on can do: the registers and bytes it names are written, and then it
retires, transfers control, or sets the prefix state. What each instruction leaves alone follows from that. -/

namespace Sys2Proof

/-- The bytes that `pc` moves on by where control goes on in sequence (R38). -/
def Instr.byteLength : Instr → Word
  | .lpre _ => 4#32
  | _ => 2#32

theorem Instr.byteLength_of_isPrefix_eq_false {i : Instr} (h : i.isPrefix = false) : i.byteLength = 2#32 := by
  cases i with
  | lpre _ => cases h
  | _ => rfl

end Sys2Proof

namespace Sys2Proof.Machine

/-- `u` is `s` with writes, in any order and of any values, to registers and bytes that the rules of `i` name. -/
inductive Writes (i : Instr) (s : State) : State → Prop
  | nothing : Writes i s s
  | general {u : State} {r : Reg} (v : Word) : Writes i s u → r ∈ i.generalWritten → Writes i s (u.setReg r v)
  | special {u : State} {k : SReg} (v : Word) : Writes i s u → k ∈ i.specialWritten → Writes i s (u.writeS k v)
  | memory {u : State} {a : Word} {bs : List Byte} : Writes i s u → storedBytes s i = some (a, bs.length) →
      s.backedAll a bs.length = true → Writes i s (u.storeBytes a bs)
  | draw {u : State} (n : Nat) : Writes i s u → Writes i s { u with draws := n }

/-- What `pre`, `lpre` and `index` do to the prefix state (R146): set their own bit where the table lets them, or clear
all three. -/
inductive PrefixStep (s : State) : State → Prop
  | cleared : s.prefixed = true → PrefixStep s s.clearPrefix
  | pre (imm : BitVec 12) : s.preHave = false → s.lpreHave = false →
      PrefixStep s { s with preHave := true, preImm := imm }
  | lpre (imm : BitVec 27) : s.preHave = false → s.lpreHave = false →
      PrefixStep s { s with lpreHave := true, lpreImm := imm }
  | index (v : Word) : s.indexHave = false → PrefixStep s { s with indexHave := true, indexReg := v }

/-- What an instruction that goes on does: it writes what it names and retires or transfers control, or it is one of
`pre`, `lpre` and `index`. -/
inductive Effect (i : Instr) (s : State) : State → Prop
  | retires {u : State} : Writes i s u → i.isPrefix = false → Effect i s u.retire
  | transfers {u : State} (target : Word) : Writes i s u → i.isPrefix = false → i.transfersControl = true →
      Effect i s (u.jump target)
  | prefixes {u : State} : PrefixStep s u → i.isPrefix = true → Effect i s (u.setPc (s.pc + i.byteLength))

/-! The model's other writes in terms of these -/

theorem bitWord_getLsbD_zero (b : Bool) : (bitWord b).getLsbD 0 = b := by cases b <;> rfl

theorem State.setFlags_eq_writeS (s : State) (f : Flags) : s.setFlags f = s.writeS .flags f.toWord := by
  simp [State.setFlags, State.writeS]

/-- `swi` (R342) as four writes of special-purpose registers and a transfer. -/
theorem State.raiseSwi_eq_jump (s : State) (arg : Word) :
    s.raiseSwi arg = ((((s.writeS .sty arg).writeS .ity 1#32).writeS .ira (s.pc + 2#32)).writeS .ie
      (bitWord (if s.params.swiClearsIe then false else s.ie))).jump s.ids := by
  simp only [State.writeS, bitWord_getLsbD_zero]
  rfl

variable {i : Instr} {s t u : State}

theorem Writes.setFlags (h : Writes i s u) (hk : .flags ∈ i.specialWritten) (f : Flags) :
    Writes i s (u.setFlags f) := by
  rw [State.setFlags_eq_writeS]
  exact h.special _ hk

theorem Writes.setHilo (h : Writes i s u) (hhi : .hi ∈ i.specialWritten) (hlo : .lo ∈ i.specialWritten) (r : DWord) :
    Writes i s (u.setHilo r) := (h.special (r.extractLsb' 32 32) hhi).special (r.extractLsb' 0 32) hlo

theorem Writes.writeNarrow {w : Nat} (h : Writes i s u) {rA : Reg} (hr : rA ∈ i.generalWritten) (r : BitVec w)
    (extended : Word) : Writes i s (u.writeNarrow rA r extended) := by
  unfold State.writeNarrow
  split
  · exact h.general _ hr
  · exact (h.general _ hr).draw _

/-- A store that is in order writes the bytes that its instruction names. -/
theorem Writes.stored {a : Word} {n : Nat} {bs : List Byte} (hstored : storedBytes s i = some (a, n))
    (haccess : s.checkAccess a n = .ok ()) (hlength : bs.length = n) : Writes i s (s.storeBytes a bs) := by
  subst hlength
  exact Writes.nothing.memory hstored (State.checkAccess_eq_ok.1 haccess).2

/-- A branch retires or transfers control (R222). -/
theorem Effect.branch (hp : i.isPrefix = false) (hc : i.transfersControl = true) (taken : Bool) (imm : Word) :
    Effect i s (s.branch taken imm) := by
  cases taken
  · exact .retires .nothing hp
  · exact .transfers _ .nothing hp hc

theorem Effect.swi (hp : i.isPrefix = false) (hc : i.transfersControl = true)
    (hw : i.specialWritten = [.sty, .ity, .ira, .ie]) (arg : Word) : Effect i s (s.raiseSwi arg) := by
  rw [State.raiseSwi_eq_jump]
  have named (k : SReg) (hk : k ∈ [SReg.sty, .ity, .ira, .ie]) : k ∈ i.specialWritten := hw ▸ hk
  exact .transfers _ ((((Writes.nothing.special _ (named .sty (by decide))).special _ (named .ity (by decide))).special
    _ (named .ira (by decide))).special _ (named .ie (by decide))) hp hc

/-- A transfer that leaves a return address in `lr`: the write may as well come first. -/
theorem Effect.link (hp : i.isPrefix = false) (hc : i.transfersControl = true) (hlr : .lr ∈ i.generalWritten)
    (target v : Word) : Effect i s ((s.jump target).setReg .lr v) :=
  Effect.transfers (u := s.setReg .lr v) target (Writes.nothing.general v hlr) hp hc

theorem Effect.returnEnabling (hp : i.isPrefix = false) (hc : i.transfersControl = true)
    (hie : .ie ∈ i.specialWritten) : Effect i s s.returnEnabling :=
  Effect.transfers (u := s.writeS .ie 1#32) s.ira (Writes.nothing.special 1#32 hie) hp hc

theorem Effect.of_exec_eq (hexec : exec i s = .next u) (h : Effect i s u) (ht : exec i s = .next t) :
    Effect i s t := by
  cases hexec.symm.trans ht
  exact h

/-! The three that set the prefix state -/

theorem exec_pre (s : State) (imm : BitVec 12) : exec (.pre imm) s = .next
    ((if s.preHave || s.lpreHave then s.clearPrefix else { s with preHave := true, preImm := imm }).setPc
      (s.pc + 2#32)) := rfl

theorem exec_lpre (s : State) (imm : BitVec 27) : exec (.lpre imm) s = .next
    ((if s.preHave || s.lpreHave then s.clearPrefix else { s with lpreHave := true, lpreImm := imm }).setPc
      (s.pc + 4#32)) := rfl

theorem exec_index (s : State) (rA : Reg) : exec (.index rA) s = .next
    ((if s.indexHave then s.clearPrefix else { s with indexHave := true, indexReg := s.reg rA }).setPc
      (s.pc + 2#32)) := rfl

theorem prefixStep_ite {c : Bool} (hc : c = true → s.prefixed = true) (h : c = false → PrefixStep s u) :
    PrefixStep s (if c then s.clearPrefix else u) := by
  cases c
  · exact h rfl
  · exact .cleared (hc rfl)

theorem Effect.pre (imm : BitVec 12) : Effect (.pre imm) s
    ((if s.preHave || s.lpreHave then s.clearPrefix else { s with preHave := true, preImm := imm }).setPc
      (s.pc + 2#32)) := by
  refine .prefixes (prefixStep_ite (fun h => by simp [State.prefixed, h]) fun h => ?_) rfl
  obtain ⟨hp, hl⟩ := Bool.or_eq_false_iff.1 h
  exact .pre imm hp hl

theorem Effect.lpre (imm : BitVec 27) : Effect (.lpre imm) s
    ((if s.preHave || s.lpreHave then s.clearPrefix else { s with lpreHave := true, lpreImm := imm }).setPc
      (s.pc + 4#32)) := by
  refine .prefixes (prefixStep_ite (fun h => by simp [State.prefixed, h]) fun h => ?_) rfl
  obtain ⟨hp, hl⟩ := Bool.or_eq_false_iff.1 h
  exact .lpre imm hp hl

theorem Effect.index (rA : Reg) : Effect (.index rA) s
    ((if s.indexHave then s.clearPrefix else { s with indexHave := true, indexReg := s.reg rA }).setPc
      (s.pc + 2#32)) :=
  .prefixes (prefixStep_ite (fun h => by simp [State.prefixed, h]) fun h => .index _ h) rfl

/-- Everything an instruction that goes on can do, constructor by constructor. -/
theorem exec_effect (ht : exec i s = .next t) : Effect i s t := by
  cases i with
  | pre imm => exact .of_exec_eq (exec_pre s imm) (.pre imm) ht
  | lpre imm => exact .of_exec_eq (exec_lpre s imm) (.lpre imm) ht
  | index rA => exact .of_exec_eq (exec_index s rA) (.index rA) ht
  | addImm rA imm | addPcImm rA imm | addSpImm rA imm | addFpImm rA imm | cpyImm rA imm | lslImm rA imm
  | lsrImm rA imm | asrImm rA imm | andImm rA imm | orrImm rA imm | xorImm rA imm =>
    exact .of_exec_eq rfl (.retires (Writes.nothing.general _ List.mem_cons_self) rfl) ht
  | zeImm rA imm =>
    simp only [exec, execZeImm] at ht
    split at ht <;> cases ht
    · exact .retires (Writes.nothing.general _ List.mem_cons_self) rfl
    · exact .retires .nothing rfl
  | seImm rA imm =>
    simp only [exec, execSeImm] at ht
    split at ht <;> cases ht
    · exact .retires (Writes.nothing.general _ List.mem_cons_self) rfl
    · exact .retires .nothing rfl
  | add rA rB | sub rA rB | addSp rA rB | addFp rA rB | adc rA rB | sbc rA rB | cpy rA rB | lsl rA rB | lsr rA rB
  | asr rA rB | and rA rB | orr rA rB | xor rA rB | mul rA rB | udiv rA rB | sdiv rA rB | umod rA rB | smod rA rB =>
    exact .of_exec_eq rfl (.retires (Writes.nothing.general _ List.mem_cons_self) rfl) ht
  | addF rA rB | subF rA rB | addSpF rA rB | addFpF rA rB | adcF rA rB | sbcF rA rB | cpyF rA rB | lslF rA rB
  | lsrF rA rB | asrF rA rB | andF rA rB | orrF rA rB | xorF rA rB =>
    exact .of_exec_eq rfl
      (.retires ((Writes.nothing.general _ List.mem_cons_self).setFlags List.mem_cons_self _) rfl) ht
  | cmpImm rA imm => exact .of_exec_eq rfl (.retires (Writes.nothing.setFlags List.mem_cons_self _) rfl) ht
  | cmp rA rB | cmpb rA rB | cmph rA rB =>
    exact .of_exec_eq rfl (.retires (Writes.nothing.setFlags List.mem_cons_self _) rfl) ht
  | lumul rA rB | lsmul rA rB | ludiv rA rB | lsdiv rA rB | lumod rA rB | lsmod rA rB =>
    exact .of_exec_eq rfl
      (.retires (Writes.nothing.setHilo List.mem_cons_self (List.mem_cons_of_mem _ List.mem_cons_self) _) rfl) ht
  | lsrb rA rB | lsrh rA rB | asrb rA rB | asrh rA rB =>
    exact .of_exec_eq rfl (.retires (Writes.nothing.writeNarrow List.mem_cons_self _ _) rfl) ht
  | swiRegImm rA imm => exact .of_exec_eq rfl (.swi rfl rfl rfl _) ht
  | swiImm imm => exact .of_exec_eq rfl (.swi rfl rfl rfl _) ht
  | bl imm => exact .of_exec_eq rfl (.link rfl rfl List.mem_cons_self _ _) ht
  | jl rA => exact .of_exec_eq rfl (.link rfl rfl List.mem_cons_self _ _) ht
  | bra imm | beq imm | bne imm | bmi imm | bpl imm | bvs imm | bvc imm | bgeu imm | bltu imm | bgtu imm | bleu imm
  | bges imm | blts imm | bgts imm | bles imm => exact .of_exec_eq rfl (.branch rfl rfl _ _) ht
  | jmp rA => exact .of_exec_eq rfl (.transfers _ .nothing rfl rfl) ht
  | jmpIra => exact .of_exec_eq rfl (.transfers _ .nothing rfl rfl) ht
  | reti => exact .of_exec_eq rfl (.returnEnabling rfl rfl List.mem_cons_self) ht
  | ei | di => exact .of_exec_eq rfl (.retires (Writes.nothing.special _ List.mem_cons_self) rfl) ht
  | cpyFromS rA sC =>
    obtain ⟨c, -, hnext⟩ := withSReg_eq_next.1 ht
    cases hnext
    exact .retires (Writes.nothing.general _ List.mem_cons_self) rfl
  | cpyToS sA rB =>
    obtain ⟨a, ha, hnext⟩ := withSReg_eq_next.1 ht
    cases hnext
    exact .retires (Writes.nothing.special _ (by simp [Instr.specialWritten, ha])) rfl
  | cpySS sA sB =>
    obtain ⟨a, ha, hnext⟩ := withSReg_eq_next.1 ht
    obtain ⟨b, -, hnext⟩ := withSReg_eq_next.1 hnext
    cases hnext
    exact .retires (Writes.nothing.special _ (by simp [Instr.specialWritten, ha])) rfl
  | push rA rB =>
    simp only [exec, execPush] at ht
    split at ht
    · cases ht
      exact .retires .nothing rfl
    · next hne =>
      obtain ⟨u, hpush, hnext⟩ := attempt_eq_next.1 ht
      obtain ⟨haccess, rfl⟩ := State.pushWord_eq_ok.1 hpush
      cases hnext
      exact .retires ((Writes.stored (by simp [storedBytes, hne]) haccess rfl).general _ List.mem_cons_self) rfl
  | pushS sA rB =>
    obtain ⟨a, -, hnext⟩ := withSReg_eq_next.1 ht
    obtain ⟨u, hpush, hnext⟩ := attempt_eq_next.1 hnext
    obtain ⟨haccess, rfl⟩ := State.pushWord_eq_ok.1 hpush
    cases hnext
    exact .retires ((Writes.stored rfl haccess rfl).general _ List.mem_cons_self) rfl
  | pop rA rB =>
    simp only [exec, execPop] at ht
    split at ht
    · cases ht
      exact .retires .nothing rfl
    · obtain ⟨⟨v, u⟩, hpop, hnext⟩ := attempt_eq_next.1 ht
      obtain ⟨-, rfl⟩ := State.popWord_eq_ok.1 hpop
      cases hnext
      exact .retires
        ((Writes.nothing.general _ (List.mem_cons_of_mem _ List.mem_cons_self)).general _ List.mem_cons_self) rfl
  | popS sA rB =>
    obtain ⟨a, ha, hnext⟩ := withSReg_eq_next.1 ht
    obtain ⟨⟨v, u⟩, hpop, hnext⟩ := attempt_eq_next.1 hnext
    obtain ⟨-, rfl⟩ := State.popWord_eq_ok.1 hpop
    cases hnext
    exact .retires
      ((Writes.nothing.general _ List.mem_cons_self).special _ (by simp [Instr.specialWritten, ha])) rfl
  | ldub rA rB | ldsb rA rB | lduh rA rB | ldsh rA rB =>
    obtain ⟨v, -, hnext⟩ := attempt_eq_next.1 ht
    cases hnext
    exact .retires (Writes.nothing.general _ List.mem_cons_self) rfl
  | ldr rA rB imm =>
    obtain ⟨v, -, hnext⟩ := attempt_eq_next.1 ht
    cases hnext
    exact .retires (Writes.nothing.general _ List.mem_cons_self) rfl
  | stb rA rB =>
    obtain ⟨u, hwrite, hnext⟩ := attempt_eq_next.1 ht
    obtain ⟨haccess, rfl⟩ := State.writeByte_eq_ok.1 hwrite
    cases hnext
    exact .retires (.stored rfl haccess rfl) rfl
  | sth rA rB =>
    obtain ⟨u, hwrite, hnext⟩ := attempt_eq_next.1 ht
    obtain ⟨haccess, rfl⟩ := State.writeHalf_eq_ok.1 hwrite
    cases hnext
    exact .retires (.stored rfl haccess rfl) rfl
  | str rA rB imm =>
    obtain ⟨u, hwrite, hnext⟩ := attempt_eq_next.1 ht
    obtain ⟨haccess, rfl⟩ := State.writeWord_eq_ok.1 hwrite
    cases hnext
    exact .retires (.stored rfl haccess rfl) rfl

end Sys2Proof.Machine
end

section
/-! SUPPORT. What every instruction leaves alone: first the writes, field by field, then the ends of an instruction; the
prefix state over two steps; the invariant. -/

namespace Sys2Proof.Machine

variable {i : Instr} {s t u : State}

/-! What the writes leave alone -/

/-- A part of the state that no single write changes is as it was after all of them. -/
theorem Writes.keeps {α : Type} {f : State → α} (h : Writes i s u) (general : ∀ u r v, f (State.setReg u r v) = f u)
    (special : ∀ u k v, f (State.writeS u k v) = f u) (memory : ∀ u a bs, f (State.storeBytes u a bs) = f u)
    (draw : ∀ (u : State) n, f { u with draws := n } = f u) : f u = f s := by
  induction h with
  | nothing => rfl
  | general v _ _ ih => exact (general _ _ v).trans ih
  | special v _ _ ih => exact (special _ _ v).trans ih
  | memory _ _ _ ih => exact (memory _ _ _).trans ih
  | draw n _ ih => exact (draw _ n).trans ih

theorem Writes.pc_eq (h : Writes i s u) : u.pc = s.pc :=
  h.keeps State.setReg_pc State.writeS_pc State.storeBytes_pc fun _ _ => rfl

theorem Writes.params_eq (h : Writes i s u) : u.params = s.params :=
  h.keeps State.setReg_params State.writeS_params State.storeBytes_params fun _ _ => rfl

theorem Writes.irqPending_eq (h : Writes i s u) : u.irqPending = s.irqPending :=
  h.keeps State.setReg_irqPending State.writeS_irqPending State.storeBytes_irqPending fun _ _ => rfl

theorem Writes.irqSource_eq (h : Writes i s u) : u.irqSource = s.irqSource :=
  h.keeps State.setReg_irqSource State.writeS_irqSource State.storeBytes_irqSource fun _ _ => rfl

theorem Writes.reg_eq (h : Writes i s u) {q : Reg} (hq : q ∉ i.generalWritten) : u.reg q = s.reg q := by
  induction h with
  | nothing => rfl
  | general v _ hr ih => exact (Regs.read_write_of_ne _ v (ne_of_mem_of_not_mem hr hq).symm).trans ih
  | special v _ _ ih => rw [State.reg, State.writeS_regs]; exact ih
  | memory _ _ _ ih => exact ih
  | draw _ _ ih => exact ih

theorem Writes.readS_eq (h : Writes i s u) {k : SReg} (hk : k ∉ i.specialWritten) : u.readS k = s.readS k := by
  induction h with
  | nothing => rfl
  | general _ _ _ ih => exact ih
  | special v _ hr ih => exact (State.readS_writeS_of_ne _ v (ne_of_mem_of_not_mem hr hk).symm).trans ih
  | memory _ _ _ ih => exact ih
  | draw _ _ ih => exact ih

theorem Writes.mem_read_eq (h : Writes i s u) {b : Word} (hb : notStored s i b) :
    u.mem.read b.toNat = s.mem.read b.toNat := by
  induction h with
  | nothing => rfl
  | general _ _ _ ih => exact ih
  | special _ _ _ ih => rw [State.writeS_mem]; exact ih
  | memory _ hstored _ ih => exact (Memory.read_writeBytes_of_outside (hb _ _ hstored)).trans ih
  | draw _ _ ih => exact ih

theorem Writes.mem_wf (h : Writes i s u) (hwf : s.mem.wf) : u.mem.wf := by
  induction h with
  | nothing => exact hwf
  | general _ _ _ ih => exact ih
  | special _ _ _ ih => rw [State.writeS_mem]; exact ih
  | memory _ _ _ ih => exact Memory.wf_writeBytes ih _ _
  | draw _ _ ih => exact ih

/-- Stores go to backed addresses only, so every listed byte stays backed (R72). -/
theorem Writes.mem_backed (h : Writes i s u) (hb : ∀ p ∈ s.mem, s.backed (BitVec.ofNat 32 p.1) = true) :
    ∀ p ∈ u.mem, s.backed (BitVec.ofNat 32 p.1) = true := by
  induction h with
  | nothing => exact hb
  | general _ _ _ ih => exact ih
  | special _ _ _ ih => rw [State.writeS_mem]; exact ih
  | memory _ _ hbacked ih =>
    intro p hp
    rcases Memory.mem_writeBytes hp with hp | ⟨k, hk, hpk⟩
    · exact ih p hp
    · rw [hpk, BitVec.ofNat_toNat, BitVec.setWidth_eq]
      exact State.backedAll_iff.1 hbacked k hk
  | draw _ _ ih => exact ih

/-! What an instruction leaves alone -/

/-- Apart from `pc` and the prefix state, an instruction leaves its writes and nothing else. -/
theorem Effect.written (h : Effect i s t) : ∃ u, Writes i s u ∧
    t = { u with pc := t.pc, preHave := t.preHave, preImm := t.preImm, lpreHave := t.lpreHave, lpreImm := t.lpreImm,
                 indexHave := t.indexHave, indexReg := t.indexReg } := by
  cases h with
  | retires hw _ => exact ⟨_, hw, rfl⟩
  | transfers _ hw _ _ => exact ⟨_, hw, rfl⟩
  | prefixes hp _ => exact ⟨s, .nothing, by cases hp <;> rfl⟩

theorem Effect.reg_eq (h : Effect i s t) {q : Reg} (hq : q ∉ i.generalWritten) : t.reg q = s.reg q := by
  obtain ⟨u, hw, ht⟩ := h.written
  rw [ht]
  exact hw.reg_eq hq

theorem Effect.readS_eq (h : Effect i s t) {k : SReg} (hk : k ∉ i.specialWritten) : t.readS k = s.readS k := by
  obtain ⟨u, hw, ht⟩ := h.written
  rw [ht]
  exact hw.readS_eq hk

theorem Effect.params_eq (h : Effect i s t) : t.params = s.params := by
  obtain ⟨u, hw, ht⟩ := h.written
  rw [ht]
  exact hw.params_eq

theorem Effect.readByte_eq (h : Effect i s t) {b : Word} (hb : notStored s i b) : t.readByte b = s.readByte b := by
  refine State.readByte_congr h.params_eq ?_
  obtain ⟨u, hw, ht⟩ := h.written
  rw [ht]
  exact hw.mem_read_eq hb

theorem Effect.irqPending_eq (h : Effect i s t) : t.irqPending = s.irqPending := by
  obtain ⟨u, hw, ht⟩ := h.written
  rw [ht]
  exact hw.irqPending_eq

theorem Effect.irqSource_eq (h : Effect i s t) : t.irqSource = s.irqSource := by
  obtain ⟨u, hw, ht⟩ := h.written
  rw [ht]
  exact hw.irqSource_eq

/-- Where control goes on in sequence, `pc` moves on by the instruction's length (R38). -/
theorem Effect.pc_eq (h : Effect i s t) (hc : i.transfersControl = false) : t.pc = s.pc + i.byteLength := by
  cases h with
  | retires hw hp => rw [State.retire_pc, hw.pc_eq, Instr.byteLength_of_isPrefix_eq_false hp]
  | transfers _ _ _ htrue => exact absurd htrue (by simp [hc])
  | prefixes _ _ => rfl

/-- An instruction that is none of `pre`, `lpre` and `index` clears the prefix state (R146). -/
theorem Effect.no_prefix_bits (h : Effect i s t) (hp : i.isPrefix = false) :
    t.preHave = false ∧ t.lpreHave = false ∧ t.indexHave = false := by
  cases h with
  | retires _ _ => exact ⟨rfl, rfl, rfl⟩
  | transfers _ _ _ _ => exact ⟨rfl, rfl, rfl⟩
  | prefixes _ htrue => exact absurd htrue (by simp [hp])

/-! The prefix state over two steps (R350) -/

/-- `index` is in effect together with `pre` or `lpre`: whichever of the three comes next clears them all. -/
def State.saturated (s : State) : Prop := (s.preHave = true ∨ s.lpreHave = true) ∧ s.indexHave = true

theorem PrefixStep.saturated (h : PrefixStep s u) (hs : s.prefixed = true) (hu : u.prefixed = true) : u.saturated := by
  cases h with
  | cleared _ => cases hu
  | pre imm hp hl => exact ⟨.inl rfl, by simpa [State.prefixed, hp, hl] using hs⟩
  | lpre imm hp hl => exact ⟨.inr rfl, by simpa [State.prefixed, hp, hl] using hs⟩
  | index v hi => exact ⟨by simpa [State.prefixed, hi] using hs, rfl⟩

theorem PrefixStep.not_prefixed (h : PrefixStep s u) (hs : s.saturated) : u.prefixed = false := by
  obtain ⟨hpre, hindex⟩ := hs
  cases h with
  | cleared _ => rfl
  | pre imm hp hl => simp [hp, hl] at hpre
  | lpre imm hp hl => simp [hp, hl] at hpre
  | index v hi => simp [hi] at hindex

/-- After an instruction a prefix is in effect only if it was `pre`, `lpre` or `index` and set its bit. -/
theorem Effect.prefixStep (h : Effect i s t) (ht : t.prefixed = true) :
    ∃ u, PrefixStep s u ∧ t.preHave = u.preHave ∧ t.lpreHave = u.lpreHave ∧ t.indexHave = u.indexHave := by
  cases h with
  | retires _ _ => cases ht
  | transfers _ _ _ _ => cases ht
  | prefixes hp _ => exact ⟨_, hp, rfl, rfl, rfl⟩

/-- With a prefix in effect no IRQ is taken, so a step that leaves one in effect is a step of the prefix state. -/
theorem step_prefixStep (hst : step s = .next t) (hs : s.prefixed = true) (ht : t.prefixed = true) :
    ∃ u, PrefixStep s u ∧ t.preHave = u.preHave ∧ t.lpreHave = u.lpreHave ∧ t.indexHave = u.indexHave := by
  rcases step_eq_next.1 hst with ⟨hirq, -⟩ | ⟨-, i, v, -, hexec, rfl⟩
  · simp [State.irqAccepted, hs] at hirq
  · have hv : v.prefixed = true := by simpa [State.prefixed] using ht
    simpa using (exec_effect hexec).prefixStep hv

/-- A choice by a Boolean disjunction, as the statements write it. -/
theorem ite_or_eq {α : Type} (a b : Bool) (x y : α) :
    (if (a || b) = true then x else y) = if a = true ∨ b = true then x else y := by
  simp only [Bool.or_eq_true]

/-! The invariant -/

/-- The invariant looks at memory, the parameters and the bits of `pre` and `lpre` alone. -/
theorem State.Inv.congr (h : s.Inv) (hm : t.mem = s.mem) (hparams : t.params = s.params)
    (hpre : t.preHave = s.preHave) (hlpre : t.lpreHave = s.lpreHave) : t.Inv := by
  obtain ⟨hwf, hbacked, hboth⟩ := h
  refine ⟨hm ▸ hwf, fun p hp => ?_, by rwa [hpre, hlpre]⟩
  rw [State.backed_congr hparams]
  exact hbacked p (hm ▸ hp)

theorem PrefixStep.not_both (h : PrefixStep s u) (hs : ¬(s.preHave = true ∧ s.lpreHave = true)) :
    ¬(u.preHave = true ∧ u.lpreHave = true) := by
  cases h with
  | cleared _ => simp
  | pre imm hp hl => simp [hl]
  | lpre imm hp hl => simp [hp]
  | index v hi => exact hs

theorem Effect.not_both (h : Effect i s t) (hs : ¬(s.preHave = true ∧ s.lpreHave = true)) :
    ¬(t.preHave = true ∧ t.lpreHave = true) := by
  cases h with
  | retires _ _ => simp
  | transfers _ _ _ _ => simp
  | prefixes hp _ => exact hp.not_both hs

/-- Every instruction keeps the invariant. -/
theorem Effect.inv (h : Effect i s t) (hs : s.Inv) : t.Inv := by
  obtain ⟨hwf, hbacked, hboth⟩ := hs
  obtain ⟨u, hw, ht⟩ := h.written
  have hm : t.mem = u.mem := by rw [ht]
  refine ⟨hm ▸ hw.mem_wf hwf, fun p hp => ?_, h.not_both hboth⟩
  rw [State.backed_congr h.params_eq]
  exact hw.mem_backed hbacked p (hm ▸ hp)

theorem State.Inv.irqEntry (h : s.Inv) : s.irqEntry.Inv := h.congr rfl rfl rfl rfl

theorem State.Inv.sampleIrq (h : s.Inv) : s.sampleIrq.Inv := h.congr (by simp) (by simp) (by simp) (by simp)

end Sys2Proof.Machine

open Sys2Proof Sys2Proof.Machine

/-- Settles O18: the IRQ entry touches nothing that the invariant looks at, an instruction stores to backed addresses
only and never sets both bits, and the sampled input is no part of the invariant. -/
theorem everyStepKeepsTheInvariant : Obligations.EveryStepKeepsTheInvariant := by
  intro s t hs hst
  rcases step_eq_next.1 hst with ⟨-, rfl⟩ | ⟨-, i, u, -, hexec, rfl⟩
  · exact hs.irqEntry.sampleIrq
  · exact ((exec_effect hexec).inv hs).sampleIrq

/-- Settles O19: a second prefix in a row leaves the state saturated, and a third then clears it. -/
theorem prefixesBlockAtMostTwoBoundaries : Obligations.PrefixesBlockAtMostTwoBoundaries := by
  rintro s t u hst htu ⟨hs, ht, hu⟩
  obtain ⟨t', htstep, hpre, hlpre, hindex⟩ := step_prefixStep hst hs ht
  obtain ⟨u', hustep, hpre', hlpre', hindex'⟩ := step_prefixStep htu ht hu
  have ht' : t'.prefixed = true := by rw [← ht, State.prefixed, State.prefixed, hpre, hlpre, hindex]
  have saturated : t.saturated := by
    have := htstep.saturated hs ht'
    rwa [State.saturated, ← hpre, ← hlpre, ← hindex] at this
  have hu' : u'.prefixed = true := by rw [← hu, State.prefixed, State.prefixed, hpre', hlpre', hindex']
  rw [hustep.not_prefixed saturated] at hu'
  cases hu'

/-- Settles O20: `pc` after an instruction that retires or sets the prefix state. -/
theorem sequentialInstructionsAdvancePc : Obligations.SequentialInstructionsAdvancePc := by
  intro i s t hexec hc
  refine ((exec_effect hexec).pc_eq hc).trans (congrArg (s.pc + ·) ?_)
  clear hexec hc
  cases i <;> rfl

/-- Settles O21, from the writes that an instruction may make. -/
theorem generalRegistersChangeOnlyAsNamed : Obligations.GeneralRegistersChangeOnlyAsNamed :=
  fun _ _ _ hexec _ hq => (exec_effect hexec).reg_eq hq

/-- Settles O22, from the writes that an instruction may make. -/
theorem specialRegistersChangeOnlyAsNamed : Obligations.SpecialRegistersChangeOnlyAsNamed :=
  fun _ _ _ hexec _ hk => (exec_effect hexec).readS_eq hk

/-- Settles O23: the one store that an instruction may make is at the address it names. -/
theorem memoryChangesOnlyWhereStored : Obligations.MemoryChangesOnlyWhereStored :=
  fun _ _ _ hexec _ hb => (exec_effect hexec).readByte_eq hb

/-- Settles O24: no write of an instruction reaches these fields, and neither the IRQ entry nor the sampling changes the
parameters. -/
theorem inputAndParametersAreNotTheCores : Obligations.InputAndParametersAreNotTheCores := by
  refine ⟨fun i s t hexec => ?_, fun s t hst => ?_⟩
  · have effect := exec_effect hexec
    exact ⟨effect.irqPending_eq, effect.irqSource_eq, effect.params_eq⟩
  · rcases step_eq_next.1 hst with ⟨-, rfl⟩ | ⟨-, i, u, -, hexec, rfl⟩
    · exact State.sampleIrq_params _
    · rw [State.sampleIrq_params, (exec_effect hexec).params_eq]

/-- Settles O25: each row is the meaning of its instruction with the choice written as a disjunction. -/
theorem prefixStateMachine : Obligations.PrefixStateMachine := by
  intro s
  refine ⟨fun imm => ?pre, fun imm => ?lpre, fun rA => ?index, fun i t hp hexec => ?others⟩
  case pre => rw [exec_pre, apply_ite (State.setPc · _), ite_or_eq]; rfl
  case lpre => rw [exec_lpre, apply_ite (State.setPc · _), ite_or_eq]; rfl
  case index => rw [exec_index, apply_ite (State.setPc · _)]; rfl
  case others => exact (exec_effect hexec).no_prefix_bits hp

end

section
/-! SUPPORT. Memory after a store: what the reads of each width see of the bytes stored, and of the others. -/

namespace Sys2Proof.Machine

variable {s : State} {a b v : Word}

theorem bitWord_toNat (b : Bool) : (bitWord b).toNat = b.toNat := by cases b <;> rfl

theorem State.backedAll_two_iff : s.backedAll a 2 = true ↔ s.backed a = true ∧ s.backed (a + 1#32) = true := by
  simp [State.backedAll, List.range_succ]

theorem State.backedAll_four_iff : s.backedAll a 4 = true ↔
    s.backed a = true ∧ s.backed (a + 1#32) = true ∧ s.backed (a + 2#32) = true ∧ s.backed (a + 3#32) = true := by
  simp [State.backedAll, List.range_succ]

/-- A byte stored at a backed address is read there again. -/
theorem State.readByte_storeBytes {bs : List Byte} (hl : bs.length < 2 ^ 32) {k : Nat} (hk : k < bs.length)
    (hb : s.backed (a + BitVec.ofNat 32 k) = true) :
    (s.storeBytes a bs).readByte (a + BitVec.ofNat 32 k) = .ok bs[k] :=
  State.readByte_eq_ok.2 ⟨hb, State.loadByte_storeBytes hl hk⟩

/-- The byte after the next begins a halfword where this one does. -/
theorem toNat_add_two_even (h : a.toNat % 2 = 0) : (a + 2#32).toNat % 2 = 0 := by
  rw [BitVec.toNat_add, BitVec.toNat_ofNat]
  omega

theorem State.readByte_storeBytes_first {x : Byte} {bs : List Byte} (hl : (x :: bs).length < 2 ^ 32)
    (hb : s.backed a = true) : (s.storeBytes a (x :: bs)).readByte a = .ok x := by
  have first := State.readByte_storeBytes (s := s) (a := a) hl (k := 0) (Nat.zero_lt_succ _)
  rw [BitVec.add_zero] at first
  exact first hb

theorem State.readByte_storeBytes_of_outside {bs : List Byte} (hb : outside a bs.length b) :
    (s.storeBytes a bs).readByte b = s.readByte b :=
  State.readByte_congr rfl (Memory.read_writeBytes_of_outside hb)

/-- The four bytes of a word put together again (R73). -/
theorem append_wordBytes (v : Word) :
    v.extractLsb' 24 8 ++ v.extractLsb' 16 8 ++ v.extractLsb' 8 8 ++ v.extractLsb' 0 8 = v := by
  rw [BitVec.extractLsb'_append_extractLsb'_eq_extractLsb' (show 24 = 16 + 8 from rfl),
    BitVec.extractLsb'_append_extractLsb'_eq_extractLsb' (show 16 = 8 + 8 from rfl)]
  exact BitVec.extractLsb'_append_extractLsb'

/-- The two bytes of either half of a word are that half. -/
theorem append_extractLsb'_bytes (v : Word) (k : Nat) :
    v.extractLsb' (k + 8) 8 ++ v.extractLsb' k 8 = v.extractLsb' k 16 :=
  BitVec.extractLsb'_append_extractLsb'_eq_extractLsb' rfl

theorem wordBytes_length_lt (v : Word) : (wordBytes v).length < 2 ^ 32 := show 4 < 2 ^ 32 by decide

/-- A byte of a stored word is read again, each at its address (R75). -/
theorem State.readByte_storeWord {k : Nat} (hk : k < 4) (hb : s.backed (a + BitVec.ofNat 32 k) = true) :
    (s.storeBytes a (wordBytes v)).readByte (a + BitVec.ofNat 32 k) = .ok ((wordBytes v)[k]'hk) :=
  State.readByte_storeBytes (wordBytes_length_lt v) hk hb

/-- A stored word is read again (R76). -/
theorem State.readWord_storeBytes (ha : a.toNat % 4 = 0) (hb : s.backedAll a 4 = true) :
    (s.storeBytes a (wordBytes v)).readWord a = .ok v := by
  obtain ⟨hb0, hb1, hb2, hb3⟩ := State.backedAll_four_iff.1 hb
  have byte0 := State.readByte_storeBytes_first (wordBytes_length_lt v) hb0
  have load (k : Nat) (hk : k < 4) (hb : s.backed (a + BitVec.ofNat 32 k) = true) :=
    (State.readByte_eq_ok.1 (State.readByte_storeWord (v := v) hk hb)).2
  rw [State.readWord_of (s := s.storeBytes a (wordBytes v)) ha hb (State.readByte_eq_ok.1 byte0).2
    (load 1 (by decide) hb1) (load 2 (by decide) hb2) (load 3 (by decide) hb3)]
  exact congrArg _ (append_wordBytes v)

/-- A store that is in order succeeds and stores its bytes. -/
theorem State.writeWord_of (ha : a.toNat % 4 = 0) (hb : s.backedAll a 4 = true) :
    s.writeWord a v = .ok (s.storeBytes a (wordBytes v)) :=
  State.writeWord_eq_ok.2 ⟨State.checkAccess_ok ha hb, rfl⟩

theorem State.writeHalf_of {h : Halfword} (ha : a.toNat % 2 = 0) (hb : s.backedAll a 2 = true) :
    s.writeHalf a h = .ok (s.storeBytes a (halfBytes h)) :=
  State.writeHalf_eq_ok.2 ⟨State.checkAccess_ok ha hb, rfl⟩

theorem State.writeByte_of {x : Byte} (hb : s.backed a = true) : s.writeByte a x = .ok (s.storeBytes a [x]) :=
  State.writeByte_eq_ok.2 ⟨State.checkAccess_ok (Nat.mod_one _) (by simpa [State.backedAll] using hb), rfl⟩

end Sys2Proof.Machine

open Sys2Proof Sys2Proof.Machine

/-- Settles O6, for any two of the sixteen registers. -/
theorem generalRegistersReadAsWritten : Obligations.GeneralRegistersReadAsWritten :=
  fun s i j v => Regs.read_write s.regs i j v

/-- Settles O7: the narrow registers in numbers, the others and the writes as the model's cases say. -/
theorem specialRegistersReadAndWrite : Obligations.SpecialRegistersReadAndWrite := by
  intro s v
  exact ⟨Flags.toWord_toNat s.flags, bitWord_toNat s.ie, bitWord_toNat s.ity, rfl, rfl, rfl, rfl, rfl, rfl, rfl, rfl,
    rfl, rfl, rfl, rfl, rfl⟩

/-- Settles O8: each wide read is the concatenation of the bytes, and a concatenation is a number with its left part
the more significant. -/
theorem wideReadsAreBigEndian : Obligations.WideReadsAreBigEndian := by
  intro s a b0 b1 b2 b3 h0 h1
  obtain ⟨hb0, h0⟩ := State.readByte_eq_ok.1 h0
  obtain ⟨hb1, h1⟩ := State.readByte_eq_ok.1 h1
  refine ⟨fun ha => ?half, fun ha h2 h3 => ?word⟩
  case half => exact ⟨_, State.readHalf_of ha (State.backedAll_two_iff.2 ⟨hb0, hb1⟩) h0 h1, toNat_append_eq b0 b1⟩
  case word =>
    obtain ⟨hb2, h2⟩ := State.readByte_eq_ok.1 h2
    obtain ⟨hb3, h3⟩ := State.readByte_eq_ok.1 h3
    refine ⟨_, State.readWord_of ha (State.backedAll_four_iff.2 ⟨hb0, hb1, hb2, hb3⟩) h0 h1 h2 h3, ?_⟩
    rw [toNat_append_eq, toNat_append_eq, toNat_append_eq]
    omega

/-- Settles O9: the state with the four bytes stored, read byte by byte and in the wider reads that these make up. -/
theorem storedWordReadsBackAtEveryWidth : Obligations.StoredWordReadsBackAtEveryWidth := by
  intro s a v ha hb
  obtain ⟨hb0, hb1, hb2, hb3⟩ := State.backedAll_four_iff.1 hb
  let t := s.storeBytes a (wordBytes v)
  have byte0 : t.readByte a = .ok (v.extractLsb' 24 8) := State.readByte_storeBytes_first (wordBytes_length_lt v) hb0
  have byte1 : t.readByte (a + 1#32) = .ok (v.extractLsb' 16 8) := State.readByte_storeWord (by decide) hb1
  have byte2 : t.readByte (a + 2#32) = .ok (v.extractLsb' 8 8) := State.readByte_storeWord (by decide) hb2
  have byte3 : t.readByte (a + 3#32) = .ok (v.extractLsb' 0 8) := State.readByte_storeWord (by decide) hb3
  have next : a + 2#32 + 1#32 = a + 3#32 := BitVec.add_assoc a 2#32 1#32
  have even : a.toNat % 2 = 0 := by omega
  refine ⟨t, State.writeWord_of ha hb, rfl, State.readWord_storeBytes ha hb, ?low, ?high, byte0, byte1, byte2, byte3,
    fun b hout => State.readByte_storeBytes_of_outside hout⟩
  case low =>
    rw [State.readHalf_of (s := t) even (State.backedAll_two_iff.2 ⟨hb0, hb1⟩) (State.readByte_eq_ok.1 byte0).2
      (State.readByte_eq_ok.1 byte1).2]
    exact congrArg _ (append_extractLsb'_bytes v 16)
  case high =>
    rw [State.readHalf_of (s := t) (toNat_add_two_even even) (State.backedAll_two_iff.2 ⟨hb2, next ▸ hb3⟩)
      (State.readByte_eq_ok.1 byte2).2 (next ▸ (State.readByte_eq_ok.1 byte3).2)]
    exact congrArg _ (append_extractLsb'_bytes v 0)

end

section
/-! SUPPORT. The step: when it takes an IRQ, and what its fetch answers. -/

namespace Sys2Proof.Machine

variable {s : State} {b0 b1 b2 b3 : Byte} {i : Instr}

/-- The three conditions of R347. -/
theorem State.irqAccepted_iff : s.irqAccepted = true ↔
    s.irqPending = true ∧ s.ie = true ∧ s.preHave = false ∧ s.lpreHave = false ∧ s.indexHave = false := by
  simp [State.irqAccepted, State.prefixed, and_assoc]

theorem step_of_irqAccepted (h : s.irqAccepted = true) : step s = .next s.irqEntry.sampleIrq := by
  rw [step, if_pos h, sampled]

theorem step_of_not_irqAccepted (h : s.irqAccepted = false) :
    step s = attempt s.fetchInstr fun i => sampled (exec i s) := by
  rw [step, if_neg (by simp [h])]

/-- The step where the fetch succeeds (R17). -/
theorem step_of_fetchInstr (h : s.irqAccepted = false) (hf : s.fetchInstr = .ok i) : step s = sampled (exec i s) := by
  rw [step_of_not_irqAccepted h, hf, attempt]

/-- The step where the fetch stops. -/
theorem step_of_fetchInstr_error (h : s.irqAccepted = false) {f : Fault} (hf : s.fetchInstr = .error f) :
    step s = .fault f := by
  rw [step_of_not_irqAccepted h, hf, attempt]

theorem sampled_eq (r : Result) : sampled r =
    match r with
    | .next t => .next (atNextBoundary t)
    | .fault f => .fault f
    | .refused r => .refused r := by
  cases r <;> rfl

/-! The fetch (R78) -/

theorem State.fetchHalf_odd {a : Word} (h : a.toNat % 2 = 1) : s.fetchHalf a = .error .misalignedFetch := by
  simp [State.fetchHalf, h, throw, throwThe, MonadExceptOf.throw, bind, Except.bind]

theorem State.fetchHalf_unbacked {a : Word} (h : a.toNat % 2 = 0) (hb : s.backedAll a 2 = false) :
    s.fetchHalf a = .error .accessRefused := by
  simp [State.fetchHalf, h, hb, throw, throwThe, MonadExceptOf.throw, bind, Except.bind]

theorem State.fetchInstr_of_fetchHalf_error {f : Fault} (h : s.fetchHalf s.pc = .error f) :
    s.fetchInstr = .error f := by
  simp [State.fetchInstr, State.fetchBytes, h, bind, Except.bind]

/-- The bytes of an instruction of one halfword. -/
theorem State.fetchBytes_of_half (h : s.pc.toNat % 2 = 0) (h0 : s.readByte s.pc = .ok b0)
    (h1 : s.readByte (s.pc + 1#32) = .ok b1) (hl : isLpre (b0 ++ b1) = false) : s.fetchBytes = .ok [b0, b1] := by
  simp [State.fetchBytes, State.fetchHalf_of h h0 h1, hl, bind, Except.bind, pure, Except.pure]

/-- The bytes of an `lpre`. -/
theorem State.fetchBytes_of_lpre (h : s.pc.toNat % 2 = 0) (h0 : s.readByte s.pc = .ok b0)
    (h1 : s.readByte (s.pc + 1#32) = .ok b1) (h2 : s.readByte (s.pc + 2#32) = .ok b2)
    (h3 : s.readByte (s.pc + 3#32) = .ok b3) (hl : isLpre (b0 ++ b1) = true) : s.fetchBytes = .ok [b0, b1, b2, b3] := by
  have h3' : s.readByte (s.pc + 2#32 + 1#32) = .ok b3 := by rwa [BitVec.add_assoc]
  have second := State.fetchHalf_of (toNat_add_two_even h) h2 h3'
  simp [State.fetchBytes, State.fetchHalf_of h h0 h1, second, hl, bind, Except.bind, pure, Except.pure]

theorem State.fetchInstr_of_fetchBytes {bs rest : List Byte} (h : s.fetchBytes = .ok bs)
    (hd : decode bs = .ok (i, rest)) : s.fetchInstr = .ok i := by
  simp [State.fetchInstr, h, hd, bind, Except.bind, pure, Except.pure]

theorem State.fetchInstr_of_reserved {bs : List Byte} {e : DecodeError} (h : s.fetchBytes = .ok bs)
    (hd : decode bs = .error e) : s.fetchInstr = .error .reservedInstruction := by
  simp [State.fetchInstr, h, hd, bind, Except.bind, throw, throwThe, MonadExceptOf.throw]

/-- A first halfword that begins no `lpre` is decoded alone: the bytes after it do not matter. -/
theorem decode_of_not_isLpre (rest : List Byte) (hl : isLpre (b0 ++ b1) = false) :
    decode (b0 :: b1 :: rest) = (decodeHalf (b0 ++ b1)).map fun i => (i, rest) := by
  simp only [decode, hl]
  cases decodeHalf (b0 ++ b1) <;> rfl

/-- Four bytes from an even `pc` on that decode: their instruction is fetched, whether it has two bytes or four. -/
theorem State.fetchInstr_of_four_bytes {rest : List Byte} (h : s.pc.toNat % 2 = 0) (h0 : s.readByte s.pc = .ok b0)
    (h1 : s.readByte (s.pc + 1#32) = .ok b1) (h2 : s.readByte (s.pc + 2#32) = .ok b2)
    (h3 : s.readByte (s.pc + 3#32) = .ok b3) (hd : decode [b0, b1, b2, b3] = .ok (i, rest)) : s.fetchInstr = .ok i := by
  cases hl : isLpre (b0 ++ b1)
  case true => exact State.fetchInstr_of_fetchBytes (State.fetchBytes_of_lpre h h0 h1 h2 h3 hl) hd
  case false =>
    have hi : decodeHalf (b0 ++ b1) = .ok i := by
      rw [decode_of_not_isLpre _ hl] at hd
      cases hh : decodeHalf (b0 ++ b1) with
      | error e => rw [hh] at hd; cases hd
      | ok j => rw [hh] at hd; cases hd; rfl
    exact State.fetchInstr_of_fetchBytes (State.fetchBytes_of_half h h0 h1 hl) (decode_of_decodeHalf hi)

/-! A word that the launch places (R88) -/

theorem State.withFetchWord_irqAccepted (s : State) (nbits w : Nat) :
    (s.withFetchWord nbits w).irqAccepted = false := by
  have entry : (s.withFetchWord nbits w).irqAccepted =
      (s.irqPending && !(s.irqPending && s.ie && !s.prefixed) && s.ie && !s.prefixed) := rfl
  rw [entry]
  cases s.irqPending <;> cases s.ie <;> cases s.prefixed <;> rfl

theorem State.withFetchWord_readByte {nbits w k : Nat} (hk : k < 4) (hb : s.backed (s.pc + BitVec.ofNat 32 k) = true) :
    (s.withFetchWord nbits w).readByte (s.pc + BitVec.ofNat 32 k) = .ok ((tableBytes nbits w)[k]'hk) := by
  refine Eq.trans (State.readByte_congr rfl rfl) (State.readByte_storeBytes (bs := tableBytes nbits w) ?_ hk hb)
  exact show 4 < 2 ^ 32 by decide

/-- A word of the table decodes where its four bytes do. -/
theorem decodeTableWord_eq_some {nbits w : Nat} (h : decodeTableWord nbits w = some i) :
    ∃ rest, decode (tableBytes nbits w) = .ok (i, rest) := by
  unfold decodeTableWord at h
  split at h
  · next rest hd => cases h; exact ⟨rest, hd⟩
  · cases h

end Sys2Proof.Machine

open Sys2Proof Sys2Proof.Machine

/-- Settles O10: the fetch gives the two or four bytes, they decode, and the step runs what they decode to. -/
theorem stepRunsTheDecodedInstruction : Obligations.StepRunsTheDecodedInstruction := by
  intro s i b0 b1 hirq hpc h0 h1
  have runs (hf : s.fetchInstr = .ok i) := (step_of_fetchInstr hirq hf).trans (sampled_eq (exec i s))
  refine ⟨fun hl hd => ?_, fun b2 b3 hl h2 h3 hd => ?_⟩
  · exact runs (State.fetchInstr_of_fetchBytes (State.fetchBytes_of_half hpc h0 h1 hl) hd)
  · exact runs (State.fetchInstr_of_fetchBytes (State.fetchBytes_of_lpre hpc h0 h1 h2 h3 hl) hd)

/-- Settles O11: the conditions are those of `irqAccepted`, and the step chooses by them. -/
theorem irqIsTakenExactlyWhenItQualifies : Obligations.IrqIsTakenExactlyWhenItQualifies := by
  intro s
  split
  · next h => exact step_of_irqAccepted (State.irqAccepted_iff.2 h)
  · next h => exact step_of_not_irqAccepted (Bool.eq_false_iff.2 (mt State.irqAccepted_iff.1 h))

/-- Settles O12: the first halfword's fetch stops, and the step with it. -/
theorem fetchStopsAtOddOrUnbackedAddresses : Obligations.FetchStopsAtOddOrUnbackedAddresses := by
  intro s hirq
  refine ⟨fun hodd => ?_, fun heven hb => ?_⟩
  · exact step_of_fetchInstr_error hirq (State.fetchInstr_of_fetchHalf_error (State.fetchHalf_odd hodd))
  · exact step_of_fetchInstr_error hirq (State.fetchInstr_of_fetchHalf_error (State.fetchHalf_unbacked heven hb))

/-- Settles O13: the halfword is fetched, and its decoding is the error that the step turns into the stop. -/
theorem reservedHalfwordStopsTheStep : Obligations.ReservedHalfwordStopsTheStep := by
  intro s b0 b1 e hirq hpc h0 h1 hl he
  have hd : decode [b0, b1] = .error e := by rw [decode_of_not_isLpre _ hl, he]; rfl
  exact step_of_fetchInstr_error hirq (State.fetchInstr_of_reserved (State.fetchBytes_of_half hpc h0 h1 hl) hd)

/-- Settles O14: no IRQ is taken before the word, its four bytes read as stored, and they are what the fetch decodes. -/
theorem placedWordIsWhatRuns : Obligations.PlacedWordIsWhatRuns := by
  intro s nbits w i hpc hb hw
  obtain ⟨hb0, hb1, hb2, hb3⟩ := State.backedAll_four_iff.1 hb
  obtain ⟨rest, hd⟩ := decodeTableWord_eq_some hw
  have byte0 := State.withFetchWord_readByte (s := s) (nbits := nbits) (w := w) (k := 0) (by decide)
  rw [BitVec.add_zero] at byte0
  have fetched : (s.withFetchWord nbits w).fetchInstr = .ok i :=
    State.fetchInstr_of_four_bytes hpc (byte0 hb0) (State.withFetchWord_readByte (k := 1) (by decide) hb1)
      (State.withFetchWord_readByte (k := 2) (by decide) hb2) (State.withFetchWord_readByte (k := 3) (by decide) hb3) hd
  refine ⟨step_of_fetchInstr (s.withFetchWord_irqAccepted nbits w) fetched, rfl, fun hirq => ?_, fun b hout => ?_⟩
  · exact show (s.irqPending && !s.irqAccepted) = s.irqPending by rw [hirq]; simp
  · exact State.readByte_congr rfl (Memory.read_writeBytes_of_outside (bs := tableBytes nbits w) hout)

/-- Settles O15: the reset state's fields. -/
theorem resetDisablesIrqsAndPrefixes : Obligations.ResetDisablesIrqsAndPrefixes :=
  ⟨rfl, rfl, rfl, rfl, rfl⟩

/-- Settles O16: with `ie` 0 no IRQ is accepted, and `ie` is 0 in every reset state. -/
theorem firstStepAfterResetIsAFetch : Obligations.FirstStepAfterResetIsAFetch := by
  have fetches (s : State) (hie : s.ie = false) :
      (step s = attempt s.fetchInstr fun i => sampled (exec i s)) ∧
        (s.pc.toNat % 2 = 1 → step s = .fault .misalignedFetch) := by
    have hirq : s.irqAccepted = false := by simp [State.irqAccepted, hie]
    exact ⟨step_of_not_irqAccepted hirq, (fetchStopsAtOddOrUnbackedAddresses s hirq).1⟩
  exact ⟨fetches, fun _ _ _ _ _ _ => fetches _ rfl⟩

/-- Settles O17: the reset state lists no byte. -/
theorem resetMeetsTheInvariant : Obligations.ResetMeetsTheInvariant :=
  ⟨⟨List.Pairwise.nil, nofun⟩, nofun, nofun⟩

end

section
/-! SUPPORT. The offset of a branch after the prefixes. -/

namespace Sys2Proof.Machine

variable {s : State}

/-- The offset where no prefix is in effect (R115). -/
theorem State.imm9_of_no_prefix (hpre : s.preHave = false) (hlpre : s.lpreHave = false) (imm : BitVec 9) :
    s.imm9 imm = imm.signExtend 32 := by
  simp [State.imm9, hpre, hlpre]

/-- The offset after `pre` is the 21-bit concatenation as a signed number (R115). -/
theorem State.imm9_toInt_of_pre (hpre : s.preHave = true) (imm : BitVec 9) :
    (s.imm9 imm).toInt = (s.preImm ++ imm).toInt := by
  rw [show s.imm9 imm = (s.preImm ++ imm).signExtend 32 by simp [State.imm9, hpre]]
  exact BitVec.toInt_signExtend_of_le (by decide)

/-- The offset after `lpre`: a window of 23 bits above the branch's own nine (R115). -/
theorem State.imm9_of_lpre (hpre : s.preHave = false) (hlpre : s.lpreHave = true) (imm : BitVec 9) :
    s.imm9 imm = s.lpreImm.extractLsb' s.params.lpreBranchLow.val 23 ++ imm := by
  simp [State.imm9, hpre, hlpre]

end Sys2Proof.Machine

open Sys2Proof.Machine

/-- Settles O27, by the prefix in effect. -/
theorem branchOffsetsAreWidenedByPrefixes : Obligations.BranchOffsetsAreWidenedByPrefixes := by
  intro s imm
  refine ⟨fun hpre hlpre => ?none, fun hpre _ => ?pre, fun hpre hlpre => ?lpre⟩
  case none =>
    rw [State.imm9_of_no_prefix hpre hlpre]
    exact BitVec.toInt_signExtend_of_le (by decide)
  case pre =>
    rw [State.imm9_toInt_of_pre hpre]
    exact toInt_append_eq s.preImm imm
  case lpre =>
    rw [State.imm9_of_lpre hpre hlpre, toNat_append_eq, BitVec.extractLsb'_toNat, Nat.shiftRight_eq_div_pow]

end

section
/-! SUPPORT. The shifts by an immediate, and `ze` and `se`, bit by bit. -/

namespace Sys2Proof.Machine

theorem exec_lslImm (s : State) (rA : Reg) (imm : BitVec 5) : exec (.lslImm rA imm) s =
    .next (s.setReg rA (lslBy s.params.shiftGe32 (s.reg rA) (s.imm5 imm).toNat)).retire := rfl

theorem exec_lsrImm (s : State) (rA : Reg) (imm : BitVec 5) : exec (.lsrImm rA imm) s =
    .next (s.setReg rA (lsrBy s.params.shiftGe32 (s.reg rA) (s.imm5 imm).toNat)).retire := rfl

theorem exec_asrImm (s : State) (rA : Reg) (imm : BitVec 5) : exec (.asrImm rA imm) s =
    .next (s.setReg rA (asrBy s.params.shiftGe32 (s.reg rA) (s.imm5 imm).toNat)).retire := rfl

/-! `ze` and `se` -/

/-- Where the position is in range, or counts modulo 32, it is the low five bits (R180). -/
theorem bitPosition_eq_some {p : Config.ZeSeRange} {imm : Word} (h : imm.toNat ≤ 31 ∨ p = .lowFive) :
    bitPosition p imm = some (imm.toNat % 32) := by
  unfold bitPosition
  by_cases hle : imm.toNat ≤ 31
  · rw [if_pos hle, Nat.mod_eq_of_lt (by omega)]
  · rw [if_neg hle, h.resolve_left hle]

theorem bitPosition_eq_none {imm : Word} (h : 32 ≤ imm.toNat) : bitPosition .unchanged imm = none := by
  rw [bitPosition, if_neg (by omega)]

theorem exec_zeImm_of_some {s : State} {rA : Reg} {imm : BitVec 5} {p : Nat}
    (h : bitPosition s.params.zeSeRange (s.imm5 imm) = some p) :
    exec (.zeImm rA imm) s = .next (s.setReg rA (zeroFrom (s.reg rA) p)).retire := by
  simp only [exec, execZeImm, h]

theorem exec_seImm_of_some {s : State} {rA : Reg} {imm : BitVec 5} {p : Nat}
    (h : bitPosition s.params.zeSeRange (s.imm5 imm) = some p) :
    exec (.seImm rA imm) s = .next (s.setReg rA (signFrom (s.reg rA) p)).retire := by
  simp only [exec, execSeImm, h]

theorem exec_zeImm_of_none {s : State} {rA : Reg} {imm : BitVec 5}
    (h : bitPosition s.params.zeSeRange (s.imm5 imm) = none) : exec (.zeImm rA imm) s = .next s.retire := by
  simp only [exec, execZeImm, h]

theorem exec_seImm_of_none {s : State} {rA : Reg} {imm : BitVec 5}
    (h : bitPosition s.params.zeSeRange (s.imm5 imm) = none) : exec (.seImm rA imm) s = .next s.retire := by
  simp only [exec, execSeImm, h]

/-- Bit by bit, `ze` keeps what lies below the position (R174). -/
theorem zeroFrom_getLsbD (v : Word) (p k : Nat) :
    (zeroFrom v p).getLsbD k = (decide (k < p) && v.getLsbD k) := by
  rw [zeroFrom, BitVec.getLsbD_and, BitVec.getLsbD_ofNat, Nat.testBit_two_pow_sub_one]
  by_cases hk : k < 32
  · simp [hk, Bool.and_comm]
  · simp [BitVec.getLsbD_of_ge v k (by omega)]

/-- Bit by bit, `se` copies the bit at the position upwards (R175). -/
theorem signFrom_getLsbD (v : Word) {p k : Nat} (hp : p < 32) (hk : k < 32) :
    (signFrom v p).getLsbD k = v.getLsbD (min k p) := by
  unfold signFrom
  split
  · have sign : (v.setWidth (p + 1)).msb = v.getLsbD p := by
      simp [BitVec.msb_eq_getLsbD_last]
    rw [BitVec.getLsbD_signExtend, decide_eq_true hk, Bool.true_and, sign, BitVec.getLsbD_setWidth]
    by_cases hkp : k < p + 1
    · rw [if_pos hkp, decide_eq_true hkp, Bool.true_and, Nat.min_eq_left (by omega)]
    · rw [if_neg hkp, Nat.min_eq_right (by omega)]
  · rw [Nat.min_eq_left (by omega)]

end Sys2Proof.Machine

open Sys2Proof Sys2Proof.Machine

/-- Settles O29: each shift writes what its law says, by the amount that `SHIFT_GE32` leaves. -/
theorem shiftsByImmediate : Obligations.ShiftsByImmediate := by
  intro s rA imm
  refine ⟨⟨_, ?lsl, lslBy_toNat _ _ _⟩, ⟨_, ?lsr, lsrBy_toNat _ _ _⟩, ⟨_, ?asr, asrBy_toInt (by decide) _ _ _⟩⟩
  case lsl => rw [exec_lslImm, State.setReg_retire_eq_completed]
  case lsr => rw [exec_lsrImm, State.setReg_retire_eq_completed]
  case asr => rw [exec_asrImm, State.setReg_retire_eq_completed]

/-- Settles O30: the position by its range, and the results bit by bit. -/
theorem zeroAndSignExtensionFromAPosition : Obligations.ZeroAndSignExtensionFromAPosition := by
  intro s rA imm
  refine ⟨fun h => ⟨⟨zeroFrom (s.reg rA) _, ?ze, zeroFrom_getLsbD _ _⟩,
    ⟨signFrom (s.reg rA) _, ?se, fun k hk => signFrom_getLsbD _ (Nat.mod_lt _ (by decide)) hk⟩⟩, fun h hp => ?outside⟩
  case ze => rw [exec_zeImm_of_some (bitPosition_eq_some h), State.setReg_retire_eq_completed]
  case se => rw [exec_seImm_of_some (bitPosition_eq_some h), State.setReg_retire_eq_completed]
  case outside =>
    have none : bitPosition s.params.zeSeRange (s.imm5 imm) = none := by rw [hp, bitPosition_eq_none h]
    rw [exec_zeImm_of_none none, exec_seImm_of_none none, completed_eq_retire]
    exact ⟨rfl, rfl⟩

end

section
/-! SUPPORT. The flags of a subtraction, at every width: equality, unsigned order, signed overflow and sign. -/

namespace Sys2Proof.Machine

/-- `a + ~b + 1` is the difference (R178). -/
theorem subC_r {w : Nat} (a b : BitVec w) : (subC a b).r = a - b := by
  have hb := b.isLt
  apply BitVec.eq_of_toNat_eq
  rw [subC, addC_r, BitVec.toNat_ofNat, BitVec.toNat_not, BitVec.toNat_sub]
  congr 1
  rw [Bool.toNat_true]
  omega

theorem toNat_sub_eq_zero_iff {w : Nat} (a b : BitVec w) : (a - b).toNat = 0 ↔ a = b := by
  rw [← sub_eq_zero (a := a), ← BitVec.toNat_inj]
  simp

/-- A signed difference that does not fit, told by the sign bits of the operands and of the result (R178). -/
theorem sub_overflow_iff {w : Nat} (a b : BitVec (w + 1)) :
    (a.msb == (~~~b).msb && (a - b).msb != a.msb) =
      decide (a.toInt - b.toInt < -2 ^ w ∨ 2 ^ w ≤ a.toInt - b.toInt) := by
  have signs := BitVec.ssubOverflow_eq a b
  have numbers : a.ssubOverflow b = decide (a.toInt - b.toInt < -2 ^ w ∨ 2 ^ w ≤ a.toInt - b.toInt) := by
    rw [BitVec.ssubOverflow, Bool.or_comm, Bool.decide_or]
    rfl
  rw [← numbers, signs, BitVec.msb_not]
  cases a.msb <;> cases b.msb <;> cases (a - b).msb <;> simp

/-- The flags of a comparison, in numbers: C says that there is no borrow, V that the signed difference does not fit. -/
theorem subC_flags {w : Nat} (a b : BitVec (w + 1)) :
    (subC a b).flags =
      { z := decide (a = b), c := decide (b.toNat ≤ a.toNat),
        v := decide (a.toInt - b.toInt < -2 ^ w ∨ 2 ^ w ≤ a.toInt - b.toInt), n := (a - b).msb } := by
  have carry : 2 ^ (w + 1) ≤ a.toNat + (~~~b).toNat + true.toNat ↔ b.toNat ≤ a.toNat := by
    have := b.isLt
    rw [BitVec.toNat_not, Bool.toNat_true]
    omega
  calc (subC a b).flags
      = { z := decide ((subC a b).r.toNat = 0), c := decide (2 ^ (w + 1) ≤ a.toNat + (~~~b).toNat + true.toNat),
          v := a.msb == (~~~b).msb && (subC a b).r.msb != a.msb, n := (subC a b).r.msb } := rfl
    _ = _ := by rw [subC_r, sub_overflow_iff]; simp only [toNat_sub_eq_zero_iff, carry]

/-- N exclusive-or V is the signed order (R240). -/
theorem sign_xor_overflow {w : Nat} (a b : BitVec (w + 1)) :
    ((a - b).msb ^^ decide (a.toInt - b.toInt < -2 ^ w ∨ 2 ^ w ≤ a.toInt - b.toInt)) =
      decide (a.toInt < b.toInt) := by
  have above := BitVec.twoPow_le_toInt_sub_toInt_iff (x := a) (y := b)
  have below := BitVec.toInt_sub_toInt_lt_twoPow_iff (x := a) (y := b)
  rw [Nat.add_sub_cancel] at above below
  rw [BitVec.msb_eq_toInt]
  by_cases hhigh : 2 ^ w ≤ a.toInt - b.toInt
  · obtain ⟨ha, hb, hr⟩ := above.1 hhigh
    simp [hhigh, hr, show ¬a.toInt < b.toInt by omega]
  by_cases hlow : a.toInt - b.toInt < -2 ^ w
  · obtain ⟨ha, hb, hr⟩ := below.1 hlow
    simp [hlow, not_lt.2 hr, show a.toInt < b.toInt by omega]
  · have fits : (a - b).toInt = a.toInt - b.toInt := by
      refine BitVec.toInt_sub_of_not_ssubOverflow ?_
      simp [BitVec.ssubOverflow, hlow, hhigh]
    simp [fits, hlow, hhigh]

end Sys2Proof.Machine
end

section
/-! SUPPORT. The compares, additions, subtractions and shifts of words: one equation per instruction, and the encodings
and the whole next states that a plain form and its `.f` form share. -/

namespace Sys2Proof.Machine

/-! One equation per instruction -/

theorem exec_cmpImm (s : State) (rA : Reg) (imm : BitVec 5) :
    exec (.cmpImm rA imm) s = .next (s.setFlags (subC (s.reg rA) (s.imm5 imm)).flags).retire := rfl

theorem exec_cmp (s : State) (rA rB : Reg) :
    exec (.cmp rA rB) s = .next (s.setFlags (subC (s.reg rA) (s.reg rB)).flags).retire := rfl

theorem exec_add (s : State) (rA rB : Reg) :
    exec (.add rA rB) s = .next (s.writeSum false rA (addC (s.reg rA) (s.reg rB) false)).retire := rfl

theorem exec_addF (s : State) (rA rB : Reg) :
    exec (.addF rA rB) s = .next (s.writeSum true rA (addC (s.reg rA) (s.reg rB) false)).retire := rfl

theorem exec_addSp (s : State) (rA rB : Reg) :
    exec (.addSp rA rB) s = .next (s.writeSum false rA (addC (s.reg .sp) (s.reg rB) false)).retire := rfl

theorem exec_addSpF (s : State) (rA rB : Reg) :
    exec (.addSpF rA rB) s = .next (s.writeSum true rA (addC (s.reg .sp) (s.reg rB) false)).retire := rfl

theorem exec_addFp (s : State) (rA rB : Reg) :
    exec (.addFp rA rB) s = .next (s.writeSum false rA (addC (s.reg .fp) (s.reg rB) false)).retire := rfl

theorem exec_addFpF (s : State) (rA rB : Reg) :
    exec (.addFpF rA rB) s = .next (s.writeSum true rA (addC (s.reg .fp) (s.reg rB) false)).retire := rfl

theorem exec_adc (s : State) (rA rB : Reg) :
    exec (.adc rA rB) s = .next (s.writeSum false rA (addC (s.reg rA) (s.reg rB) s.flags.c)).retire := rfl

theorem exec_adcF (s : State) (rA rB : Reg) :
    exec (.adcF rA rB) s = .next (s.writeSum true rA (addC (s.reg rA) (s.reg rB) s.flags.c)).retire := rfl

theorem exec_sub (s : State) (rA rB : Reg) :
    exec (.sub rA rB) s = .next (s.writeSum false rA (addC (s.reg rA) (~~~(s.reg rB)) true)).retire := rfl

theorem exec_subF (s : State) (rA rB : Reg) :
    exec (.subF rA rB) s = .next (s.writeSum true rA (addC (s.reg rA) (~~~(s.reg rB)) true)).retire := rfl

theorem exec_sbc (s : State) (rA rB : Reg) :
    exec (.sbc rA rB) s = .next (s.writeSum false rA (addC (s.reg rA) (~~~(s.reg rB)) s.flags.c)).retire := rfl

theorem exec_sbcF (s : State) (rA rB : Reg) :
    exec (.sbcF rA rB) s = .next (s.writeSum true rA (addC (s.reg rA) (~~~(s.reg rB)) s.flags.c)).retire := rfl

theorem exec_lsl (s : State) (rA rB : Reg) : exec (.lsl rA rB) s =
    .next (s.writeLogic false rA (lslBy s.params.shiftGe32 (s.reg rA) (s.reg rB).toNat)).retire := rfl

theorem exec_lslF (s : State) (rA rB : Reg) : exec (.lslF rA rB) s =
    .next (s.writeLogic true rA (lslBy s.params.shiftGe32 (s.reg rA) (s.reg rB).toNat)).retire := rfl

theorem exec_lsr (s : State) (rA rB : Reg) : exec (.lsr rA rB) s =
    .next (s.writeLogic false rA (lsrBy s.params.shiftGe32 (s.reg rA) (s.reg rB).toNat)).retire := rfl

theorem exec_lsrF (s : State) (rA rB : Reg) : exec (.lsrF rA rB) s =
    .next (s.writeLogic true rA (lsrBy s.params.shiftGe32 (s.reg rA) (s.reg rB).toNat)).retire := rfl

theorem exec_asr (s : State) (rA rB : Reg) : exec (.asr rA rB) s =
    .next (s.writeLogic false rA (asrBy s.params.shiftGe32 (s.reg rA) (s.reg rB).toNat)).retire := rfl

theorem exec_asrF (s : State) (rA rB : Reg) : exec (.asrF rA rB) s =
    .next (s.writeLogic true rA (asrBy s.params.shiftGe32 (s.reg rA) (s.reg rB).toNat)).retire := rfl

/-! What they share -/

/-- Writing the flags and going on changes those, `pc` and the prefix state (R38, R146). -/
theorem State.setFlags_retire_eq_completed (s : State) (f : Flags) :
    (s.setFlags f).retire = completed { s with flags := f } :=
  (completed_eq_retire (s.setFlags f)).symm

theorem State.writeSum_false (s : State) (rA : Reg) (a : Sum 32) : s.writeSum false rA a = s.setReg rA a.r := rfl

/-- Where the `f` bit is 1, the whole next state: the register and all four flags of the sum (R191, R192). -/
theorem State.writeSum_true_retire_eq_completed (s : State) (rA : Reg) (a : Sum 32) :
    (s.writeSum true rA a).retire = completed { s with regs := s.regs.write rA a.r, flags := a.flags } :=
  (completed_eq_retire (s.writeSum true rA a)).symm

/-- The halfwords `010f oooo bbbb aaaa` (R106) of a plain form and its `.f` form, and the states after them where both
write the sum `a`. -/
theorem group2_sum_encodings_and_results {plain flagged : Instr} {o : BitVec 4} {rA rB : Reg} {s : State} {a : Sum 32}
    {r : Word} {f : Flags} (encode_plain : encode plain = encodeGroup2 0#1 o rA rB)
    (encode_flagged : encode flagged = encodeGroup2 1#1 o rA rB)
    (exec_plain : exec plain s = .next (s.writeSum false rA a).retire)
    (exec_flagged : exec flagged s = .next (s.writeSum true rA a).retire) (sum_r : a.r = r) (sum_flags : a.flags = f) :
    encode plain = [0b010#3 ++ 0#1 ++ o ++ rB.field ++ rA.field] ∧
      encode flagged = [0b010#3 ++ 1#1 ++ o ++ rB.field ++ rA.field] ∧
      exec plain s = .next (completed { s with regs := s.regs.write rA r }) ∧
      exec flagged s = .next (completed { s with regs := s.regs.write rA r, flags := f }) := by
  subst sum_r sum_flags
  refine ⟨?_, ?_, ?_, ?_⟩
  · rw [encode_plain, encodeGroup2]
  · rw [encode_flagged, encodeGroup2]
  · rw [exec_plain, State.writeSum_false, State.setReg_retire_eq_completed]
  · rw [exec_flagged, State.writeSum_true_retire_eq_completed]

/-! Subtraction with a borrow, in exact numbers -/

theorem toInt_not_eq (b : Word) : (~~~b).toInt = -b.toInt - 1 := by
  have := b.isLt
  rw [BitVec.toInt_eq_toNat_cond, BitVec.toInt_eq_toNat_cond, BitVec.toNat_not]
  split <;> split <;> omega

/-- `a + ~b + c` is the difference with the borrow `1 - c` (R209). -/
theorem addC_not_r {a b : Word} {c : Bool} {t : Int} (ht : t = (a.toNat : Int) - b.toNat - (1 - c.toNat : Nat)) :
    (addC a (~~~b) c).r = BitVec.ofInt 32 t := by
  have ha := a.isLt
  have hb := b.isLt
  have hc : c.toNat ≤ 1 := Bool.toNat_le c
  apply BitVec.eq_of_toNat_eq
  rw [addC_r, BitVec.toNat_ofNat, BitVec.toNat_ofInt, BitVec.toNat_not]
  omega

/-- The flags of a subtraction with the borrow `1 - c`, where `t` and `e` are the exact unsigned and signed differences:
C says that there is no borrow (R209). -/
theorem addC_not_flags {a b : Word} {c : Bool} {t e : Int} (ht : t = (a.toNat : Int) - b.toNat - (1 - c.toNat : Nat))
    (he : e = a.toInt - b.toInt - (1 - c.toNat : Nat)) :
    (addC a (~~~b) c).flags =
      { z := decide (BitVec.ofInt 32 t = 0#32), c := decide (0 ≤ t), v := decide (e < -2 ^ 31 ∨ 2 ^ 31 ≤ e),
        n := (BitVec.ofInt 32 t).msb } := by
  have hb := b.isLt
  have hc : c.toNat ≤ 1 := Bool.toNat_le c
  have carry : 2 ^ 32 ≤ a.toNat + (~~~b).toNat + c.toNat ↔ 0 ≤ t := by
    rw [BitVec.toNat_not]
    omega
  have exact_difference : a.toInt + (~~~b).toInt + (c.toNat : Int) = e := by
    rw [toInt_not_eq]
    omega
  have zero_iff (r : Word) : r.toNat = 0 ↔ r = 0#32 := BitVec.toNat_inj (y := 0#32)
  calc (addC a (~~~b) c).flags
      = { z := decide ((addC a (~~~b) c).r.toNat = 0), c := decide (2 ^ 32 ≤ a.toNat + (~~~b).toNat + c.toNat),
          v := (addC a (~~~b) c).flags.v, n := (addC a (~~~b) c).r.msb } := rfl
    _ = _ := by rw [addC_flags, addC_not_r ht, exact_difference]; simp only [carry, zero_iff]

/-- A compare of words sets the flags of the subtraction and nothing else, and N exclusive-or V is then the signed
order. -/
theorem flags_of_compare {i : Instr} {s : State} {a b : Word}
    (hexec : exec i s = .next (s.setFlags (subC a b).flags).retire) :
    ∃ f : Flags, exec i s = .next (completed { s with flags := f }) ∧
      f.z = decide (a = b) ∧ f.c = decide (b.toNat ≤ a.toNat) ∧
      f.v = decide (a.toInt - b.toInt < -2 ^ 31 ∨ 2 ^ 31 ≤ a.toInt - b.toInt) ∧
      f.n = (a - b).msb ∧ ((f.n ^^ f.v) = decide (a.toInt < b.toInt)) := by
  rw [State.setFlags_retire_eq_completed, subC_flags] at hexec
  exact ⟨_, hexec, rfl, rfl, rfl, rfl, sign_xor_overflow _ _⟩

end Sys2Proof.Machine

open Sys2Proof Sys2Proof.Machine

/-- Settles O31: both compares set the flags of the subtraction, and the `f` bit of `cmp` is not decoded. -/
theorem wideComparesSetTheFlags : Obligations.WideComparesSetTheFlags := by
  intro s rA rB imm
  refine ⟨rfl, rfl, fun f => ?decoded, ?flags⟩
  case decoded =>
    rw [decodeHalf_group2, Reg.ofField_field, Reg.ofField_field]
    rfl
  case flags =>
    simp only [List.forall_mem_cons, List.not_mem_nil, false_implies, implies_true, and_true]
    exact ⟨flags_of_compare (exec_cmpImm s rA imm), flags_of_compare (exec_cmp s rA rB)⟩

/-- Settles O33, row by row: the sum and its flags are those of one exact addition. -/
theorem additionForms : Obligations.AdditionForms := by
  intro s rA rB
  simp only [List.forall_mem_cons, List.not_mem_nil, false_implies, implies_true, and_true]
  refine ⟨?add, ?addSp, ?addFp, ?adc⟩
  case add =>
    exact group2_sum_encodings_and_results rfl rfl (exec_add s rA rB) (exec_addF s rA rB) (addC_r _ _ _)
      (addC_flags _ _ _)
  case addSp =>
    exact group2_sum_encodings_and_results rfl rfl (exec_addSp s rA rB) (exec_addSpF s rA rB) (addC_r _ _ _)
      (addC_flags _ _ _)
  case addFp =>
    exact group2_sum_encodings_and_results rfl rfl (exec_addFp s rA rB) (exec_addFpF s rA rB) (addC_r _ _ _)
      (addC_flags _ _ _)
  case adc =>
    exact group2_sum_encodings_and_results rfl rfl (exec_adc s rA rB) (exec_adcF s rA rB) (addC_r _ _ _)
      (addC_flags _ _ _)

/-- Settles O34, row by row: `sub` is the subtraction whose borrow is 0, and `sbc` takes the complement of C. -/
theorem subtractionForms : Obligations.SubtractionForms := by
  intro s rA rB
  simp only [List.forall_mem_cons, List.not_mem_nil, false_implies, implies_true, and_true]
  refine ⟨?sub, ?sbc⟩
  case sub =>
    exact group2_sum_encodings_and_results rfl rfl (exec_sub s rA rB) (exec_subF s rA rB) (addC_not_r (c := true) rfl)
      (addC_not_flags (c := true) rfl rfl)
  case sbc =>
    exact group2_sum_encodings_and_results rfl rfl (exec_sbc s rA rB) (exec_sbcF s rA rB) (addC_not_r rfl)
      (addC_not_flags rfl rfl)

end

section
/-! SUPPORT. Shifts by a register, and arithmetic of two words. -/

namespace Sys2Proof.Machine

/-- A plain form and its `.f` form that both write the result `r`, of which `P` holds. -/
theorem exists_result_of_forms {plain flagged : Instr} {rA : Reg} {s : State} {r : Word} {P : Word → Prop} (hr : P r)
    (exec_plain : exec plain s = .next (s.writeLogic false rA r).retire)
    (exec_flagged : exec flagged s = .next (s.writeLogic true rA r).retire) :
    ∃ r : Word, P r ∧ exec plain s = .next (completed { s with regs := s.regs.write rA r }) ∧
      exec flagged s = .next (completed
        { s with regs := s.regs.write rA r, flags := { s.flags with z := decide (r = 0#32), n := r.getLsbD 31 } }) := by
  rw [State.writeLogic_false, State.setReg_retire_eq_completed] at exec_plain
  rw [State.writeLogic_true_retire_eq_completed] at exec_flagged
  exact ⟨r, hr, exec_plain, exec_flagged⟩

/-- The carry out of the low words, taken in by the high words, makes one addition of two words (R210). -/
theorem addC_append (ah al bh bl : Word) (c : Bool) :
    ((addC ah bh (addC al bl c).flags.c).r ++ (addC al bl c).r : DWord) = (addC (ah ++ al : DWord) (bh ++ bl) c).r := by
  have hc : c.toNat ≤ 1 := Bool.toNat_le c
  have carry : (addC al bl c).flags.c = decide (2 ^ 32 ≤ al.toNat + bl.toNat + c.toNat) := rfl
  apply BitVec.eq_of_toNat_eq
  rw [toNat_append_eq, addC_r, addC_r, addC_r, BitVec.toNat_ofNat, BitVec.toNat_ofNat, BitVec.toNat_ofNat,
    toNat_append_eq, toNat_append_eq, carry]
  by_cases overflow : 2 ^ 32 ≤ al.toNat + bl.toNat + c.toNat
  · rw [decide_eq_true overflow, Bool.toNat_true]
    omega
  · rw [decide_eq_false overflow, Bool.toNat_false]
    omega

theorem addC_false_r {w : Nat} (a b : BitVec w) : (addC a b false).r = a + b := by
  rw [addC_r, Bool.toNat_false, Nat.add_zero, BitVec.ofNat_add, BitVec.ofNat_toNat, BitVec.ofNat_toNat,
    BitVec.setWidth_eq, BitVec.setWidth_eq]

theorem not_append_eq {n m : Nat} (x : BitVec n) (y : BitVec m) : ~~~(x ++ y) = ~~~x ++ ~~~y := by
  ext k hk
  simp only [BitVec.getElem_not, BitVec.getElem_append]
  split <;> simp

theorem State.reg_writeSum_retire (s : State) (f : Bool) (i q : Reg) (a : Sum 32) :
    (s.writeSum f i a).retire.reg q = if q = i then a.r else s.reg q := by
  rw [State.reg, State.retire_regs, State.writeSum_regs, Regs.read_write]
  rfl

theorem State.flags_writeSum_true_retire (s : State) (i : Reg) (a : Sum 32) :
    (s.writeSum true i a).retire.flags = a.flags := rfl

/-- Two instructions that add words, the second with the carry of the first: what the two results are together. -/
theorem reg_append_of_two_sums (s : State) {aLo aHi : Reg} (h : aHi ≠ aLo) (low : Sum 32) (high : State → Sum 32) :
    let t := (s.writeSum true aLo low).retire
    let u := (t.writeSum false aHi (high t)).retire
    (u.reg aHi ++ u.reg aLo : DWord) = (high t).r ++ low.r := by
  intro t u
  have first : u.reg aHi = (high t).r := by rw [State.reg_writeSum_retire, if_pos rfl]
  have second : u.reg aLo = low.r := by
    rw [State.reg_writeSum_retire, if_neg h.symm, State.reg_writeSum_retire, if_pos rfl]
  rw [first, second]

end Sys2Proof.Machine

open Sys2Proof Sys2Proof.Machine

/-- Settles O36, row by row: each shift writes what its law says, by the amount that `SHIFT_GE32` leaves. -/
theorem shiftsByRegister : Obligations.ShiftsByRegister := by
  intro s rA rB
  simp only [List.forall_mem_cons, List.not_mem_nil, false_implies, implies_true, and_true]
  refine ⟨?lsl, ?lsr, ?asr⟩
  case lsl => exact exists_result_of_forms (lslBy_toNat _ _ _) (exec_lsl s rA rB) (exec_lslF s rA rB)
  case lsr => exact exists_result_of_forms (lsrBy_toNat _ _ _) (exec_lsr s rA rB) (exec_lsrF s rA rB)
  case asr => exact exists_result_of_forms (asrBy_toInt (by decide) _ _ _) (exec_asr s rA rB) (exec_asrF s rA rB)

/-- Settles O37: the two results together are one addition of two words, of the second operand or of its complement. -/
theorem multiwordAdditionAndSubtraction : Obligations.MultiwordAdditionAndSubtraction := by
  intro s aLo aHi bLo bHi ha hb
  refine ⟨⟨_, _, exec_addF s aLo bLo, exec_adc _ aHi bHi, ?add⟩, ⟨_, _, exec_subF s aLo bLo, exec_sbc _ aHi bHi, ?sub⟩⟩
  case add =>
    refine (reg_append_of_two_sums s ha _ fun t => addC (t.reg aHi) (t.reg bHi) t.flags.c).trans ?_
    rw [State.reg_writeSum_retire, if_neg ha, State.reg_writeSum_retire, if_neg hb, State.flags_writeSum_true_retire,
      addC_append, addC_false_r]
  case sub =>
    refine (reg_append_of_two_sums s ha _ fun t => addC (t.reg aHi) (~~~(t.reg bHi)) t.flags.c).trans ?_
    rw [State.reg_writeSum_retire, if_neg ha, State.reg_writeSum_retire, if_neg hb, State.flags_writeSum_true_retire,
      addC_append, ← not_append_eq]
    exact subC_r _ _

end

section
/-! SUPPORT. The branches after a compare: which flags say which relation. -/

namespace Sys2Proof.Machine

theorem exec_cmpb (s : State) (rA rB : Reg) : exec (.cmpb rA rB) s =
    .next (s.setFlags (subC ((s.reg rA).extractLsb' 0 8) ((s.reg rB).extractLsb' 0 8)).flags).retire := rfl

theorem exec_cmph (s : State) (rA rB : Reg) : exec (.cmph rA rB) s =
    .next (s.setFlags (subC ((s.reg rA).extractLsb' 0 16) ((s.reg rB).extractLsb' 0 16)).flags).retire := rfl

/-- What a compare leaves of two operands, each as an unsigned and as a signed number: the flags that the branches read,
and no prefix in effect. -/
structure State.Compared (t : State) (ua ub : Nat) (sa sb : Int) : Prop where
  zero : t.flags.z = decide (ua = ub)
  carry : t.flags.c = decide (ub ≤ ua)
  less : (t.flags.n ^^ t.flags.v) = decide (sa < sb)
  equal : ua = ub ↔ sa = sb
  no_pre : t.preHave = false
  no_lpre : t.lpreHave = false

theorem State.compared_of_flags {w : Nat} {t : State} {a b : BitVec (w + 1)} (hflags : t.flags = (subC a b).flags)
    (hpre : t.preHave = false) (hlpre : t.lpreHave = false) : t.Compared a.toNat b.toNat a.toInt b.toInt := by
  rw [subC_flags] at hflags
  refine ⟨?_, by rw [hflags], by rw [hflags]; exact sign_xor_overflow a b, ?_, hpre, hlpre⟩
  · simp only [hflags, BitVec.toNat_inj]
  · rw [BitVec.toNat_inj, BitVec.toInt_inj]

/-- A branch after a compare, taken where its condition says so (R222). -/
theorem exec_branch_of_compared {t : State} {ua ub : Nat} {sa sb : Int} (ht : t.Compared ua ub sa sb) {i : Instr}
    {off : BitVec 9} {taken relation : Bool} (hexec : exec i t = .next (t.branch taken (t.imm9 off)))
    (hrelation : taken = relation) : exec i t = .next
      (if relation then transferred t (t.pc + off.signExtend 32 + 2#32) else completed t) := by
  rw [hexec, State.branch_eq, State.imm9_of_no_prefix ht.no_pre ht.no_lpre, hrelation]

/-- The ten branches of R240 that name a relation, with the relation of two operands as unsigned and signed numbers. -/
def relationBranches : List ((BitVec 9 → Instr) × (Nat → Nat → Int → Int → Bool)) :=
  [(.beq, fun ua ub _ _ => decide (ua = ub)), (.bne, fun ua ub _ _ => decide (ua ≠ ub)),
    (.bgeu, fun ua ub _ _ => decide (ub ≤ ua)), (.bltu, fun ua ub _ _ => decide (ua < ub)),
    (.bgtu, fun ua ub _ _ => decide (ub < ua)), (.bleu, fun ua ub _ _ => decide (ua ≤ ub)),
    (.bges, fun _ _ sa sb => decide (sb ≤ sa)), (.blts, fun _ _ sa sb => decide (sa < sb)),
    (.bgts, fun _ _ sa sb => decide (sb < sa)), (.bles, fun _ _ sa sb => decide (sa ≤ sb))]

/-- After a compare each of them is taken exactly where its operands stand in its relation. -/
theorem exec_relationBranches {t : State} {ua ub : Nat} {sa sb : Int} (ht : t.Compared ua ub sa sb) (off : BitVec 9) :
    ∀ r ∈ relationBranches, exec (r.1 off) t = .next
      (if r.2 ua ub sa sb then transferred t (t.pc + off.signExtend 32 + 2#32) else completed t) := by
  obtain ⟨zero, carry, less, equal, -, -⟩ := id ht
  simp only [relationBranches, List.forall_mem_cons, List.not_mem_nil, false_implies, implies_true, and_true]
  refine ⟨?beq, ?bne, ?bgeu, ?bltu, ?bgtu, ?bleu, ?bges, ?blts, ?bgts, ?bles⟩
  case beq => exact exec_branch_of_compared ht (exec_beq t off) zero
  case bne => exact exec_branch_of_compared ht (exec_bne t off) (by rw [zero, decide_not])
  case bgeu => exact exec_branch_of_compared ht (exec_bgeu t off) carry
  case bltu => exact exec_branch_of_compared ht (exec_bltu t off) (by rw [carry, ← decide_not]; congr 1; simp)
  case bgtu =>
    refine exec_branch_of_compared ht (exec_bgtu t off) ?_
    rw [zero, carry, ← decide_not, ← Bool.decide_and, decide_eq_decide]
    omega
  case bleu =>
    refine exec_branch_of_compared ht (exec_bleu t off) ?_
    rw [zero, carry, ← decide_not, ← Bool.decide_or, decide_eq_decide]
    omega
  case bges =>
    refine exec_branch_of_compared ht (exec_bges t off) ?_
    rw [less, ← decide_not, decide_eq_decide]
    omega
  case blts => exact exec_branch_of_compared ht (exec_blts t off) less
  case bgts =>
    refine exec_branch_of_compared ht (exec_bgts t off) ?_
    rw [zero, less, ← decide_not, ← decide_not, ← Bool.decide_and, decide_eq_decide, equal]
    omega
  case bles =>
    refine exec_branch_of_compared ht (exec_bles t off) ?_
    rw [zero, less, ← Bool.decide_or, decide_eq_decide, equal]
    omega

theorem exists_compare_then_branch {i : Instr} {s t : State} {ua ub : Nat} {sa sb : Int} (hexec : exec i s = .next t)
    (ht : t.Compared ua ub sa sb) (off : BitVec 9) : ∀ r ∈ relationBranches,
      ∃ t, exec i s = .next t ∧ exec (r.1 off) t = .next
        (if r.2 ua ub sa sb then transferred t (t.pc + off.signExtend 32 + 2#32) else completed t) :=
  fun r hr => ⟨t, hexec, exec_relationBranches ht off r hr⟩

end Sys2Proof.Machine

open Sys2Proof Sys2Proof.Machine

/-- Settles O41: each compare leaves its operands compared, at its own width, and each branch reads the relation from
there. -/
theorem branchAfterCompareMeansTheComparison : Obligations.BranchAfterCompareMeansTheComparison := by
  intro s rA rB imm off
  refine List.forall_mem_cons.2 ⟨?cmp, List.forall_mem_cons.2 ⟨?subF, List.forall_mem_cons.2 ⟨?cmpImm,
    List.forall_mem_cons.2 ⟨?cmpb, List.forall_mem_singleton.2 ?cmph⟩⟩⟩⟩
  case cmp => exact exists_compare_then_branch (exec_cmp s rA rB) (State.compared_of_flags rfl rfl rfl) off
  case subF => exact exists_compare_then_branch (exec_subF s rA rB) (State.compared_of_flags rfl rfl rfl) off
  case cmpImm => exact exists_compare_then_branch (exec_cmpImm s rA imm) (State.compared_of_flags rfl rfl rfl) off
  case cmpb => exact exists_compare_then_branch (exec_cmpb s rA rB) (State.compared_of_flags rfl rfl rfl) off
  case cmph => exact exists_compare_then_branch (exec_cmph s rA rB) (State.compared_of_flags rfl rfl rfl) off

/-- Settles O57: the flags of the subtraction, at 8 and at 16 bits. -/
theorem narrowComparesSetTheFlags : Obligations.NarrowComparesSetTheFlags := by
  intro s rA rB
  refine ⟨?byte, ?half⟩
  case byte => rw [exec_cmpb, State.setFlags_retire_eq_completed, subC_flags]
  case half => rw [exec_cmph, State.setFlags_retire_eq_completed, subC_flags]

end

section
/-! SUPPORT. The narrow shifts: what a narrow result leaves in the register, under either value of `NARROW_UPPER`. -/

namespace Sys2Proof.Machine

theorem exec_lsrb (s : State) (rA rB : Reg) : exec (.lsrb rA rB) s =
    let r := lsrBy s.params.shiftGe32 ((s.reg rA).extractLsb' 0 8) (s.reg rB).toNat
    .next (s.writeNarrow rA r (r.zeroExtend 32)).retire := rfl

theorem exec_lsrh (s : State) (rA rB : Reg) : exec (.lsrh rA rB) s =
    let r := lsrBy s.params.shiftGe32 ((s.reg rA).extractLsb' 0 16) (s.reg rB).toNat
    .next (s.writeNarrow rA r (r.zeroExtend 32)).retire := rfl

theorem exec_asrb (s : State) (rA rB : Reg) : exec (.asrb rA rB) s =
    let r := asrBy s.params.shiftGe32 ((s.reg rA).extractLsb' 0 8) (s.reg rB).toNat
    .next (s.writeNarrow rA r (r.signExtend 32)).retire := rfl

theorem exec_asrh (s : State) (rA rB : Reg) : exec (.asrh rA rB) s =
    let r := asrBy s.params.shiftGe32 ((s.reg rA).extractLsb' 0 16) (s.reg rB).toNat
    .next (s.writeNarrow rA r (r.signExtend 32)).retire := rfl

theorem extractLsb'_zero_toNat {n w : Nat} (x : BitVec n) : (x.extractLsb' 0 w).toNat = x.toNat % 2 ^ w := by
  rw [BitVec.extractLsb'_toNat, Nat.shiftRight_zero]

theorem extractLsb'_zeroExtend {n w : Nat} (h : w ≤ n) (x : BitVec w) : (x.zeroExtend n).extractLsb' 0 w = x := by
  apply BitVec.eq_of_toNat_eq
  rw [extractLsb'_zero_toNat, BitVec.toNat_setWidth_of_le h, Nat.mod_eq_of_lt x.isLt]

theorem extractLsb'_signExtend {n w : Nat} (h : w ≤ n) (x : BitVec w) : (x.signExtend n).extractLsb' 0 w = x := by
  refine BitVec.eq_of_getLsbD_eq fun k hk => ?_
  rw [BitVec.getLsbD_extractLsb', BitVec.getLsbD_signExtend]
  simp [hk, Nat.lt_of_lt_of_le hk h]

/-- The low bits of a free value with a narrow result put below its upper part are that result (R327). -/
theorem extractLsb'_drawn_above {w : Nat} (h : w ≤ 32) (x : Nat) (r : BitVec w) :
    (BitVec.ofNat 32 (x / 2 ^ w * 2 ^ w + r.toNat)).extractLsb' 0 w = r := by
  apply BitVec.eq_of_toNat_eq
  rw [extractLsb'_zero_toNat, BitVec.toNat_ofNat, Nat.mod_mod_of_dvd _ (Nat.pow_dvd_pow 2 h), Nat.mul_add_mod',
    Nat.mod_eq_of_lt r.isLt]

/-- What a narrow shift leaves: its result in the low bits, and by default the extended result in the whole register. -/
theorem exists_of_exec_writeNarrow {i : Instr} {s : State} {rA : Reg} {w : Nat} {r : BitVec w} {extended : Word}
    (hexec : exec i s = .next (s.writeNarrow rA r extended).retire) (hw : w ≤ 32)
    (low : extended.extractLsb' 0 w = r) :
    ∃ v n, exec i s = .next (completed { s with regs := s.regs.write rA v, draws := n }) ∧ v.extractLsb' 0 w = r ∧
      (s.params.narrowUpper = .extended → v = extended ∧ n = s.draws) := by
  unfold State.writeNarrow at hexec
  split at hexec
  · exact ⟨extended, s.draws, hexec, low, fun _ => ⟨rfl, rfl⟩⟩
  · next hdrawn =>
    exact ⟨_, s.draws + 1, hexec, extractLsb'_drawn_above hw _ r, fun h => by rw [hdrawn] at h; cases h⟩

/-- A narrow logical shift (R330, R331): the division, rounded down, in the low bits, and by default in the register. -/
theorem narrow_logical_shift {i : Instr} {s : State} {rA : Reg} {w n : Nat} {x : BitVec w} (hw : w ≤ 32)
    (hexec : exec i s = .next (s.writeNarrow rA (lsrBy s.params.shiftGe32 x n)
      ((lsrBy s.params.shiftGe32 x n).zeroExtend 32)).retire) :
    ∃ v k, exec i s = .next (completed { s with regs := s.regs.write rA v, draws := k }) ∧
      v.toNat % 2 ^ w = x.toNat / 2 ^ shiftAmount s.params.shiftGe32 w n ∧
      (s.params.narrowUpper = .extended →
        v.toNat = x.toNat / 2 ^ shiftAmount s.params.shiftGe32 w n ∧ k = s.draws) := by
  obtain ⟨v, k, next, low, whole⟩ := exists_of_exec_writeNarrow hexec hw (extractLsb'_zeroExtend hw _)
  refine ⟨v, k, next, ?_, fun h => ⟨?_, (whole h).2⟩⟩
  · rw [← extractLsb'_zero_toNat, low, lsrBy_toNat]
  · rw [(whole h).1, BitVec.toNat_setWidth_of_le hw, lsrBy_toNat]

/-- A narrow arithmetic shift (R332, R333): the signed division, rounded down, in the low bits, and by default in the
register. -/
theorem narrow_arithmetic_shift {i : Instr} {s : State} {rA : Reg} {w n : Nat} {x : BitVec w} (h0 : 0 < w) (hw : w ≤ 32)
    (hexec : exec i s = .next (s.writeNarrow rA (asrBy s.params.shiftGe32 x n)
      ((asrBy s.params.shiftGe32 x n).signExtend 32)).retire) :
    ∃ v k, exec i s = .next (completed { s with regs := s.regs.write rA v, draws := k }) ∧
      (v.extractLsb' 0 w).toInt = x.toInt / 2 ^ shiftAmount s.params.shiftGe32 w n ∧
      (s.params.narrowUpper = .extended →
        v.toInt = x.toInt / 2 ^ shiftAmount s.params.shiftGe32 w n ∧ k = s.draws) := by
  obtain ⟨v, k, next, low, whole⟩ := exists_of_exec_writeNarrow hexec hw (extractLsb'_signExtend hw _)
  refine ⟨v, k, next, ?_, fun h => ⟨?_, (whole h).2⟩⟩
  · rw [low, asrBy_toInt h0]
  · rw [(whole h).1, BitVec.toInt_signExtend_of_le hw, asrBy_toInt h0]

end Sys2Proof.Machine

open Sys2Proof Sys2Proof.Machine

/-- Settles O58: two logical and two arithmetic shifts, at 8 and at 16 bits. -/
theorem narrowShifts : Obligations.NarrowShifts := by
  intro s rA rB
  refine ⟨?lsrb, ?lsrh, ?asrb, ?asrh⟩
  case lsrb => exact narrow_logical_shift (by decide) (exec_lsrb s rA rB)
  case lsrh => exact narrow_logical_shift (by decide) (exec_lsrh s rA rB)
  case asrb => exact narrow_arithmetic_shift (by decide) (by decide) (exec_asrb s rA rB)
  case asrh => exact narrow_arithmetic_shift (by decide) (by decide) (exec_asrh s rA rB)

end

section
/-! SUPPORT. Control: the software interrupt, the jumps and returns, and the copies of special-purpose registers. -/

namespace Sys2Proof.Machine

theorem exec_swiRegImm (s : State) (rA : Reg) (imm : BitVec 5) :
    exec (.swiRegImm rA imm) s = .next (s.raiseSwi (s.reg rA + s.imm5 imm)) := rfl

theorem exec_swiImm (s : State) (imm : BitVec 5) : exec (.swiImm imm) s = .next (s.raiseSwi (s.imm5 imm)) := rfl

theorem exec_jl (s : State) (rA : Reg) :
    exec (.jl rA) s = .next ((s.jump (s.reg rA)).setReg .lr (s.pc + 2#32)) := rfl

theorem exec_jmp (s : State) (rA : Reg) : exec (.jmp rA) s = .next (s.jump (s.reg rA)) := rfl

theorem exec_jmpIra (s : State) : exec .jmpIra s = .next (s.jump s.ira) := rfl

theorem exec_reti (s : State) : exec .reti s = .next s.returnEnabling := rfl

theorem exec_ei (s : State) : exec .ei s = .next (s.writeS .ie 1#32).retire := rfl

theorem exec_di (s : State) : exec .di s = .next (s.writeS .ie 0#32).retire := rfl

theorem exec_cpyFromS (s : State) (rA : Reg) (k : SReg) :
    exec (.cpyFromS rA k.field) s = .next (s.setReg rA (s.readS k)).retire := withSReg_field k _

theorem exec_cpyToS (s : State) (k : SReg) (rB : Reg) :
    exec (.cpyToS k.field rB) s = .next (s.writeS k (s.reg rB)).retire := withSReg_field k _

theorem exec_cpySS (s : State) (k j : SReg) :
    exec (.cpySS k.field j.field) s = .next (s.writeS k (s.readS j)).retire :=
  (withSReg_field k _).trans (withSReg_field j _)

/-- The software interrupt's whole next state (R342). -/
theorem State.raiseSwi_eq (s : State) (arg : Word) : s.raiseSwi arg =
    { s with sty := arg, ity := true, ira := s.pc + 2#32, ie := (if s.params.swiClearsIe then false else s.ie),
             pc := s.ids, preHave := false, lpreHave := false, indexHave := false } := rfl

/-- `reti` sets `ie` and transfers to `ira` (R254). -/
theorem State.returnEnabling_eq_transferred (s : State) :
    s.returnEnabling = transferred { s with ie := true } s.ira := rfl

/-- What `reti` makes of the state that an IRQ's entry left, at the next boundary (R348, R352). -/
theorem State.returnEnabling_irqEntry (s : State) : s.irqEntry.sampleIrq.returnEnabling =
    { s with ira := s.pc, ity := false, ie := true, preHave := false, lpreHave := false, indexHave := false,
             irqPending := s.irqEntry.sampleIrq.irqPending, irqSource := s.irqEntry.sampleIrq.irqSource } := by
  have sampled_fields : s.irqEntry.sampleIrq =
      { s.irqEntry with irqPending := s.irqEntry.sampleIrq.irqPending,
                        irqSource := s.irqEntry.sampleIrq.irqSource } := by
    unfold State.sampleIrq
    split <;> rfl
  rw [sampled_fields]
  rfl

/-- What `jmp ira` makes of the state that a `swi` left (R342, R352). -/
theorem State.jump_ira_raiseSwi (s : State) (arg : Word) : (s.raiseSwi arg).jump (s.raiseSwi arg).ira =
    completed { s with sty := arg, ity := true, ira := s.pc + 2#32,
                       ie := (if s.params.swiClearsIe then false else s.ie) } := rfl

/-! Reserved special-purpose register fields (R49) -/

theorem SReg.ofField_eq_none {k : SField} (h : 8 ≤ k.toNat) : SReg.ofField k = none := by
  unfold SReg.ofField
  split
  case h_9 => rfl
  all_goals omega

theorem withSReg_of_reserved {k : SField} (h : 8 ≤ k.toNat) (f : SReg → Result) :
    withSReg k f = .fault .reservedInstruction := by
  rw [withSReg, SReg.ofField_eq_none h]

theorem withSReg_eq_fault {k : SField} {f : SReg → Result} (h : ∀ r, f r = .fault .reservedInstruction) :
    withSReg k f = .fault .reservedInstruction := by
  rw [withSReg]
  split
  · exact h _
  · rfl

end Sys2Proof.Machine

open Sys2Proof Sys2Proof.Machine

/-- Settles O32, from the two equations and the software interrupt's whole next state. -/
theorem swiTakesTheSoftwareInterrupt : Obligations.SwiTakesTheSoftwareInterrupt := by
  intro s rA imm
  refine ⟨?reg, ?alone⟩
  case reg => rw [exec_swiRegImm, State.raiseSwi_eq]
  case alone => rw [exec_swiImm, State.raiseSwi_eq]

/-- Settles O42: the encodings of group 4 and, for each instruction, its equation in the written-out ends. -/
theorem jumpsAndInterruptControl : Obligations.JumpsAndInterruptControl := by
  intro s rA
  refine ⟨encodeGroup4_eq _ _ _, encodeGroup4_eq _ _ _, rfl, rfl, rfl, rfl, ?jl, ?jmp, ?jmpIra, ?reti, ?ei, ?di⟩
  case jl => rw [exec_jl, State.jump_setReg_eq_transferred]
  case jmp => rw [exec_jmp, transferred_eq_jump]
  case jmpIra => rw [exec_jmpIra, transferred_eq_jump]
  case reti => rw [exec_reti, State.returnEnabling_eq_transferred]
  case ei => rw [exec_ei, ← completed_eq_retire]; rfl
  case di => rw [exec_di, ← completed_eq_retire]; rfl

/-- Settles O43: the fields name their registers, and each copy is one write. -/
theorem specialRegisterCopies : Obligations.SpecialRegisterCopies := by
  intro s rA k j
  refine ⟨encodeGroup4_eq _ _ _, encodeGroup4_eq _ _ _, encodeGroup4_eq _ _ _, ?fromS, ?toS, ?both⟩
  case fromS => rw [exec_cpyFromS, State.setReg_retire_eq_completed]
  case toS => rw [exec_cpyToS, completed_eq_retire]
  case both => rw [exec_cpySS, completed_eq_retire]

/-- Settles O44: `reti` undoes the entry where `ie` was 1 and no prefix was in effect, which is when an IRQ is taken;
`jmp ira` goes where the `swi` said. -/
theorem returnsResumeWhereTheEntryLeftOff : Obligations.ReturnsResumeWhereTheEntryLeftOff := by
  intro s t imm
  refine ⟨fun hirq hst => ?irq, fun hswi => ?swi⟩
  case irq =>
    obtain ⟨-, hie, hpre, hlpre, hindex⟩ := State.irqAccepted_iff.1 hirq
    cases (step_of_irqAccepted hirq).symm.trans hst
    refine ⟨_, exec_reti _, ?_⟩
    rw [State.returnEnabling_irqEntry, hie, hpre, hlpre, hindex]
  case swi =>
    cases (exec_swiImm s imm).symm.trans hswi
    rw [exec_jmpIra, State.jump_ira_raiseSwi]

/-- Settles O45: the reserved field is looked up first, or after the other field of the same instruction. -/
theorem reservedSpecialRegisterFieldStops : Obligations.ReservedSpecialRegisterFieldStops := by
  intro s rA rB k j hk
  have stops := withSReg_of_reserved hk
  simp only [List.forall_mem_cons, List.not_mem_nil, false_implies, implies_true, and_true]
  exact ⟨stops _, stops _, stops _, withSReg_eq_fault fun _ => stops _, stops _, stops _⟩

end

section
/-! SUPPORT. The divisions: the whole next state by the divisor, and quotient and remainder in exact numbers. -/

namespace Sys2Proof.Machine

/-! One equation per instruction -/

theorem exec_udiv (s : State) (rA rB : Reg) : exec (.udiv rA rB) s = .next (s.divide .udiv rA rB quotU) := rfl

theorem exec_sdiv (s : State) (rA rB : Reg) : exec (.sdiv rA rB) s = .next (s.divide .sdiv rA rB quotS) := rfl

theorem exec_umod (s : State) (rA rB : Reg) : exec (.umod rA rB) s = .next (s.divide .umod rA rB remU) := rfl

theorem exec_smod (s : State) (rA rB : Reg) : exec (.smod rA rB) s = .next (s.divide .smod rA rB remS) := rfl

theorem exec_ludiv (s : State) (rA rB : Reg) : exec (.ludiv rA rB) s = .next (s.divideLong .ludiv rA rB quotU) := rfl

theorem exec_lsdiv (s : State) (rA rB : Reg) : exec (.lsdiv rA rB) s = .next (s.divideLong .lsdiv rA rB quotS) := rfl

theorem exec_lumod (s : State) (rA rB : Reg) : exec (.lumod rA rB) s = .next (s.divideLong .lumod rA rB remU) := rfl

theorem exec_lsmod (s : State) (rA rB : Reg) : exec (.lsmod rA rB) s = .next (s.divideLong .lsmod rA rB remS) := rfl

/-! What they share -/

variable {i : Instr} {s : State} {rA rB : Reg}

theorem exec_divide_of_ne {op : Config.DivOp} {f : Word → Word → Word}
    (hexec : exec i s = .next (s.divide op rA rB f)) (hd : (s.reg rB).toNat ≠ 0) :
    exec i s = .next (completed { s with regs := s.regs.write rA (f (s.reg rA) (s.reg rB)) }) := by
  rw [hexec, ← State.setReg_retire_eq_completed, State.divide, if_neg hd]

theorem exec_divide_of_zero {op : Config.DivOp} {f : Word → Word → Word}
    (hexec : exec i s = .next (s.divide op rA rB f)) (hd : s.reg rB = 0#32) :
    exec i s = .next (completed { s with regs := s.regs.write rA (Config.div0 op (s.reg rA)) }) := by
  rw [hexec, ← State.setReg_retire_eq_completed, State.divide, if_pos (by rw [hd]; rfl)]

/-- The 64-bit result of a long division by a divisor that is not zero, in the pair (R292). -/
theorem exists_hi_lo_of_divideLong {op : Config.LongDivOp} {f : DWord → DWord → DWord}
    (hexec : exec i s = .next (s.divideLong op rA rB f)) (hd : (s.reg rA ++ s.reg rB : DWord).toNat ≠ 0) :
    ∃ h l : Word, exec i s = .next (completed { s with hi := h, lo := l }) ∧
      h ++ l = f (s.hi ++ s.lo) (s.reg rA ++ s.reg rB) := by
  refine exists_hi_lo_of_exec_setHilo ?_
  rw [hexec, State.divideLong, if_neg hd]
  rfl

theorem exec_divideLong_of_zero {op : Config.LongDivOp} {f : DWord → DWord → DWord}
    (hexec : exec i s = .next (s.divideLong op rA rB f)) (hA : s.reg rA = 0#32) (hB : s.reg rB = 0#32) :
    exec i s = .next (completed { s with hi := (Config.div0Long op (s.hi ++ s.lo)).extractLsb' 32 32,
                                         lo := (Config.div0Long op (s.hi ++ s.lo)).extractLsb' 0 32 }) := by
  rw [hexec, ← State.setHilo_retire_eq_completed, State.divideLong, if_pos (by rw [hA, hB]; rfl)]
  rfl

/-! Signed division in exact numbers -/

/-- What R293 says of a dividend, a divisor, a quotient and a remainder, where `lowest` is the most negative value. -/
def SignedQuotRem (n d q r lowest : Int) : Prop :=
  if n = lowest ∧ d = -1 then q = lowest ∧ r = 0
  else n = q * d + r ∧ r.natAbs < d.natAbs ∧ (0 ≤ n → 0 ≤ r) ∧ (n ≤ 0 → r ≤ 0)

/-- The quotient rounded toward zero and its remainder. -/
theorem tdiv_tmod_spec (n : Int) {d : Int} (hd : d ≠ 0) :
    n = n.tdiv d * d + n.tmod d ∧ (n.tmod d).natAbs < d.natAbs ∧ (0 ≤ n → 0 ≤ n.tmod d) ∧
      (n ≤ 0 → n.tmod d ≤ 0) := by
  refine ⟨(Int.tdiv_mul_add_tmod n d).symm, ?_, Int.tmod_nonneg d, fun hn => ?_⟩
  · rw [Int.natAbs_tmod]
    exact Nat.mod_lt _ (Int.natAbs_pos.2 hd)
  · have := Int.tmod_nonneg d (Int.neg_nonneg.2 hn)
    rw [Int.neg_tmod] at this
    omega

/-- A divisor that is neither 1 nor -1 at least halves the dividend. -/
theorem two_mul_natAbs_tdiv_le (n : Int) {d : Int} (hpos : d ≠ 1) (hneg : d ≠ -1) :
    2 * (n.tdiv d).natAbs ≤ n.natAbs := by
  have quotient : (n.tdiv d).natAbs = n.natAbs / d.natAbs := Int.natAbs_tdiv n d
  rcases eq_or_ne d 0 with rfl | hd
  · simp
  · have halved : n.natAbs / d.natAbs ≤ n.natAbs / 2 := Nat.div_le_div_left (by omega) (by decide)
    omega

/-- The quotient of two values of `w + 1` bits fits, but for the lowest value by -1. -/
theorem tdiv_bounds {w : Nat} (n d : BitVec (w + 1)) (hfit : ¬(n.toInt = -2 ^ w ∧ d.toInt = -1)) :
    -2 ^ w ≤ n.toInt.tdiv d.toInt ∧ n.toInt.tdiv d.toInt < 2 ^ w := by
  have hlow : -2 ^ w ≤ n.toInt := BitVec.le_toInt n
  have hhigh : n.toInt < 2 ^ w := BitVec.toInt_lt
  by_cases hneg : d.toInt = -1
  · rw [hneg, Int.tdiv_neg, Int.tdiv_one]
    have := fun h => hfit ⟨h, hneg⟩
    omega
  · by_cases hpos : d.toInt = 1
    · rw [hpos, Int.tdiv_one]
      exact ⟨hlow, hhigh⟩
    · have halved := two_mul_natAbs_tdiv_le n.toInt hpos hneg
      omega

/-- The one overflow (R293): the lowest value is its own quotient by -1. -/
theorem quotS_remS_overflow {w : Nat} {n d : BitVec (w + 1)} (hn : n.toInt = -2 ^ w) (hd : d.toInt = -1) :
    (quotS n d).toInt = -2 ^ w ∧ (remS n d).toInt = 0 := by
  have quotient : n.toInt.tdiv d.toInt = 2 ^ w := by rw [hn, hd, Int.tdiv_neg, Int.tdiv_one, Int.neg_neg]
  refine ⟨?_, ?_⟩
  · rw [quotS, quotient, BitVec.toInt_ofInt, Int.bmod_eq_neg (by positivity) (by push_cast; ring)]
  · rw [remS, quotient, hn, hd, Int.mul_neg_one, Int.sub_self, BitVec.toInt_ofInt, Int.zero_bmod]

/-- Signed quotient and remainder are those of the exact division, the overflow as R293 says. -/
theorem quotS_remS_spec {w : Nat} (n d : BitVec (w + 1)) (hd : d.toInt ≠ 0) :
    SignedQuotRem n.toInt d.toInt (quotS n d).toInt (remS n d).toInt (-2 ^ w) := by
  unfold SignedQuotRem
  split
  case isTrue h => exact quotS_remS_overflow h.1 h.2
  case isFalse h =>
    have spec := tdiv_tmod_spec n.toInt hd
    obtain ⟨hlow, hhigh⟩ := tdiv_bounds n d h
    have quotient : (quotS n d).toInt = n.toInt.tdiv d.toInt :=
      BitVec.toInt_ofInt_eq_self (Nat.succ_pos w) hlow hhigh
    have remainder : (remS n d).toInt = n.toInt.tmod d.toInt := by
      have hdlow : -2 ^ w ≤ d.toInt := BitVec.le_toInt d
      have hdhigh : d.toInt < 2 ^ w := BitVec.toInt_lt
      have difference : n.toInt - n.toInt.tdiv d.toInt * d.toInt = n.toInt.tmod d.toInt := by
        linarith [spec.1]
      obtain ⟨-, small, -, -⟩ := spec
      rw [remS, difference]
      have fits : -2 ^ w ≤ n.toInt.tmod d.toInt ∧ n.toInt.tmod d.toInt < 2 ^ w := by omega
      exact BitVec.toInt_ofInt_eq_self (Nat.succ_pos w) fits.1 fits.2
    rw [quotient, remainder]
    exact spec

theorem toNat_ne_zero_of_toInt_ne_zero {w : Nat} {d : BitVec w} (hd : d.toInt ≠ 0) : d.toNat ≠ 0 := by
  intro h
  rw [show d = 0#w from BitVec.eq_of_toNat_eq (by simpa using h), BitVec.toInt_zero] at hd
  exact hd rfl

end Sys2Proof.Machine

open Sys2Proof Sys2Proof.Machine

/-- Settles O50: the 32-bit and the 64-bit quotient and remainder are those of one division of natural numbers. -/
theorem unsignedDivision : Obligations.UnsignedDivision := by
  intro s rA rB
  refine ⟨fun hd => ?word, fun hd => ?pair⟩
  case word =>
    refine ⟨_, _, exec_divide_of_ne (exec_udiv s rA rB) hd, exec_divide_of_ne (exec_umod s rA rB) hd, ?_, ?_⟩
    · rw [quotU_toNat, remU_toNat, Nat.div_add_mod']
    · rw [remU_toNat]
      exact Nat.mod_lt _ (Nat.pos_of_ne_zero hd)
  case pair =>
    rw [← toNat_append_eq] at hd
    obtain ⟨qh, ql, quot_next, quot⟩ := exists_hi_lo_of_divideLong (exec_ludiv s rA rB) hd
    obtain ⟨rh, rl, rem_next, rem⟩ := exists_hi_lo_of_divideLong (exec_lumod s rA rB) hd
    refine ⟨qh, ql, rh, rl, quot_next, rem_next, ?_, ?_⟩
    · rw [← toNat_append_eq, ← toNat_append_eq, ← toNat_append_eq, ← toNat_append_eq, quot, rem, quotU_toNat,
        remU_toNat, Nat.div_add_mod']
    · rw [← toNat_append_eq, ← toNat_append_eq, rem, remU_toNat]
      exact Nat.mod_lt _ (Nat.pos_of_ne_zero hd)

/-- Settles O51: the 32-bit and the 64-bit quotient and remainder, each as one signed division. -/
theorem signedDivision : Obligations.SignedDivision := by
  intro s rA rB
  refine ⟨fun hd => ?word, fun hd => ?pair⟩
  case word =>
    have hd' := toNat_ne_zero_of_toInt_ne_zero hd
    exact ⟨_, _, exec_divide_of_ne (exec_sdiv s rA rB) hd', exec_divide_of_ne (exec_smod s rA rB) hd',
      quotS_remS_spec _ _ hd⟩
  case pair =>
    have hd' := toNat_ne_zero_of_toInt_ne_zero hd
    obtain ⟨qh, ql, quot_next, quot⟩ := exists_hi_lo_of_divideLong (exec_lsdiv s rA rB) hd'
    obtain ⟨rh, rl, rem_next, rem⟩ := exists_hi_lo_of_divideLong (exec_lsmod s rA rB) hd'
    refine ⟨qh, ql, rh, rl, quot_next, rem_next, ?_⟩
    rw [quot, rem]
    exact quotS_remS_spec _ _ hd

/-- Settles O52, row by row: the divisor is zero, and the value is the free one. -/
theorem divisionByZeroRuns : Obligations.DivisionByZeroRuns := by
  intro s rA rB hB
  refine ⟨?word, fun hA => ?pair⟩
  case word =>
    simp only [List.forall_mem_cons, List.not_mem_nil, false_implies, implies_true, and_true]
    exact ⟨exec_divide_of_zero (exec_udiv s rA rB) hB, exec_divide_of_zero (exec_sdiv s rA rB) hB,
      exec_divide_of_zero (exec_umod s rA rB) hB, exec_divide_of_zero (exec_smod s rA rB) hB⟩
  case pair =>
    simp only [List.forall_mem_cons, List.not_mem_nil, false_implies, implies_true, and_true]
    exact ⟨exec_divideLong_of_zero (exec_ludiv s rA rB) hA hB, exec_divideLong_of_zero (exec_lsdiv s rA rB) hA hB,
      exec_divideLong_of_zero (exec_lumod s rA rB) hA hB, exec_divideLong_of_zero (exec_lsmod s rA rB) hA hB⟩

end

section
/-! SUPPORT. The loads, the stores and the stack: what each instruction attempts, what the attempt leaves where the
access is in order, and where it stops. -/

namespace Sys2Proof.Machine

/-! One equation per instruction -/

theorem exec_ldub (s : State) (rA rB : Reg) : exec (.ldub rA rB) s =
    attempt (s.readByte (s.narrowEa rB)) fun v => .next (s.setReg rA (v.zeroExtend 32)).retire := rfl

theorem exec_ldsb (s : State) (rA rB : Reg) : exec (.ldsb rA rB) s =
    attempt (s.readByte (s.narrowEa rB)) fun v => .next (s.setReg rA (v.signExtend 32)).retire := rfl

theorem exec_lduh (s : State) (rA rB : Reg) : exec (.lduh rA rB) s =
    attempt (s.readHalf (s.narrowEa rB)) fun v => .next (s.setReg rA (v.zeroExtend 32)).retire := rfl

theorem exec_ldsh (s : State) (rA rB : Reg) : exec (.ldsh rA rB) s =
    attempt (s.readHalf (s.narrowEa rB)) fun v => .next (s.setReg rA (v.signExtend 32)).retire := rfl

theorem exec_ldr (s : State) (rA rB : Reg) (imm : BitVec 5) : exec (.ldr rA rB imm) s =
    attempt (s.readWord (s.wordEa rB imm)) fun v => .next (s.setReg rA v).retire := rfl

theorem exec_stb (s : State) (rA rB : Reg) : exec (.stb rA rB) s =
    attempt (s.writeByte (s.narrowEa rB) ((s.reg rA).extractLsb' 0 8)) fun t => .next t.retire := rfl

theorem exec_sth (s : State) (rA rB : Reg) : exec (.sth rA rB) s =
    attempt (s.writeHalf (s.narrowEa rB) ((s.reg rA).extractLsb' 0 16)) fun t => .next t.retire := rfl

theorem exec_str (s : State) (rA rB : Reg) (imm : BitVec 5) : exec (.str rA rB imm) s =
    attempt (s.writeWord (s.wordEa rB imm) (s.reg rA)) fun t => .next t.retire := rfl

theorem exec_push_self (s : State) (rB : Reg) : exec (.push rB rB) s = .next s.retire := if_pos rfl

theorem exec_push_of_ne (s : State) {rA rB : Reg} (h : rA ≠ rB) : exec (.push rA rB) s =
    attempt (s.pushWord rB (s.reg rA)) fun t => .next t.retire := if_neg h

theorem exec_pushS (s : State) (k : SReg) (rB : Reg) : exec (.pushS k.field rB) s =
    attempt (s.pushWord rB (s.readS k)) fun t => .next t.retire := withSReg_field k _

theorem exec_pop_self (s : State) (rB : Reg) : exec (.pop rB rB) s = .next s.retire := if_pos rfl

theorem exec_pop_of_ne (s : State) {rA rB : Reg} (h : rA ≠ rB) : exec (.pop rA rB) s =
    attempt (s.popWord rB) fun (v, t) => .next (t.setReg rA v).retire := if_neg h

theorem exec_popS (s : State) (k : SReg) (rB : Reg) : exec (.popS k.field rB) s =
    attempt (s.popWord rB) fun (v, t) => .next (t.writeS k v).retire := withSReg_field k _

/-! Where the access is in order -/

theorem attempt_of_ok {α : Type} {x : Except Fault α} {v : α} (h : x = .ok v) (k : α → Result) :
    attempt x k = k v := by
  rw [h, attempt]

variable {s : State} {i : Instr}

/-- A load writes what it read, extended (R302 to R305, R318). -/
theorem exec_of_load {α : Type} {x : Except Fault α} {v : α} {rA : Reg} {f : α → Word} {r : Word}
    (hexec : exec i s = attempt x fun v => .next (s.setReg rA (f v)).retire) (hx : x = .ok v) (hr : f v = r) :
    exec i s = .next (completed { s with regs := s.regs.write rA r }) := by
  rw [hexec, attempt_of_ok hx, hr, State.setReg_retire_eq_completed]

theorem zeroExtend_eq_ofNat {w : Nat} (x : BitVec w) : x.zeroExtend 32 = BitVec.ofNat 32 x.toNat :=
  (BitVec.ofNat_toNat 32 x).symm

/-- A push in order stores the word below which it moves the pointer (R261). -/
theorem State.pushWord_of {rB : Reg} {v : Word} (ha : (s.reg rB).toNat % 4 = 0) (hb : s.backedAll (s.reg rB) 4 = true) :
    s.pushWord rB v = .ok ((s.storeBytes (s.reg rB) (wordBytes v)).setReg rB (s.reg rB - 4#32)) :=
  State.pushWord_eq_ok.2 ⟨State.checkAccess_ok ha hb, rfl⟩

theorem State.popWord_of {rB : Reg} {v : Word} (hv : s.readWord (s.reg rB + 4#32) = .ok v) :
    s.popWord rB = .ok (v, s.setReg rB (s.reg rB + 4#32)) :=
  State.popWord_eq_ok.2 ⟨hv, rfl⟩

/-- What a push leaves: the word where the pointer was, the pointer 4 lower, every other byte as before. -/
theorem exists_of_exec_push {rB : Reg} {v : Word}
    (hexec : exec i s = attempt (s.pushWord rB v) fun t => .next t.retire) (ha : (s.reg rB).toNat % 4 = 0)
    (hb : s.backedAll (s.reg rB) 4 = true) :
    ∃ t, exec i s = .next t ∧ t.readWord (s.reg rB) = .ok v ∧
      (∀ b, outside (s.reg rB) 4 b → t.readByte b = s.readByte b) ∧
      t = completed { s with regs := s.regs.write rB (s.reg rB - 4#32), mem := t.mem } := by
  rw [attempt_of_ok (State.pushWord_of ha hb)] at hexec
  refine ⟨_, hexec, ?word, fun b hout => ?byte, rfl⟩
  case word => exact State.readWord_storeBytes (s := s) ha hb
  case byte => exact State.readByte_storeBytes_of_outside (s := s) (bs := wordBytes v) hout

/-- What a store of a word leaves. -/
theorem exists_of_exec_storeWord {a v : Word} (hexec : exec i s = attempt (s.writeWord a v) fun t => .next t.retire)
    (ha : a.toNat % 4 = 0) (hb : s.backedAll a 4 = true) :
    ∃ t, exec i s = .next t ∧ t.readWord a = .ok v ∧ (∀ b, outside a 4 b → t.readByte b = s.readByte b) ∧
      t = completed { s with mem := t.mem } := by
  rw [attempt_of_ok (State.writeWord_of ha hb)] at hexec
  refine ⟨_, hexec, ?word, fun b hout => ?byte, rfl⟩
  case word => exact State.readWord_storeBytes (s := s) ha hb
  case byte => exact State.readByte_storeBytes_of_outside (s := s) (bs := wordBytes v) hout

/-- What a store of a byte leaves. -/
theorem exists_of_exec_storeByte {a : Word} {x : Byte}
    (hexec : exec i s = attempt (s.writeByte a x) fun t => .next t.retire) (hb : s.backed a = true) :
    ∃ t, exec i s = .next t ∧ t.readByte a = .ok x ∧ (∀ b, b ≠ a → t.readByte b = s.readByte b) ∧
      t = completed { s with mem := t.mem } := by
  rw [attempt_of_ok (State.writeByte_of hb)] at hexec
  refine ⟨_, hexec, ?written, fun b hne => ?other, rfl⟩
  case written => exact State.readByte_storeBytes_first (s := s) (bs := []) (show 1 < 2 ^ 32 by decide) hb
  case other =>
    refine State.readByte_storeBytes_of_outside (s := s) (bs := [x]) fun k hk => ?_
    rwa [Nat.lt_one_iff.1 hk, BitVec.add_zero]

/-- What a store of a halfword leaves: its bytes, the more significant first. -/
theorem exists_of_exec_storeHalf {a : Word} {h : Halfword}
    (hexec : exec i s = attempt (s.writeHalf a h) fun t => .next t.retire) (ha : a.toNat % 2 = 0)
    (hb : s.backedAll a 2 = true) :
    ∃ t, exec i s = .next t ∧ t.readByte a = .ok (h.extractLsb' 8 8) ∧
      t.readByte (a + 1#32) = .ok (h.extractLsb' 0 8) ∧ (∀ b, outside a 2 b → t.readByte b = s.readByte b) ∧
      t = completed { s with mem := t.mem } := by
  obtain ⟨hb0, hb1⟩ := State.backedAll_two_iff.1 hb
  have length : (halfBytes h).length < 2 ^ 32 := show 2 < 2 ^ 32 by decide
  rw [attempt_of_ok (State.writeHalf_of ha hb)] at hexec
  refine ⟨_, hexec, ?first, ?second, fun b hout => ?other, rfl⟩
  case first => exact State.readByte_storeBytes_first (s := s) length hb0
  case second => exact State.readByte_storeBytes (s := s) length (k := 1) (show 1 < 2 by decide) hb1
  case other => exact State.readByte_storeBytes_of_outside (s := s) (bs := halfBytes h) hout

/-! Where it stops (R72, R80) -/

theorem State.checkAccess_misaligned {a : Word} {n : Nat} (h : a.toNat % n ≠ 0) :
    s.checkAccess a n = .error .misalignedAccess := by
  rw [State.checkAccess, if_pos h]

theorem State.checkAccess_unbacked {a : Word} {n : Nat} (h : a.toNat % n = 0) (hb : s.backedAll a n = false) :
    s.checkAccess a n = .error .accessRefused := by
  rw [State.checkAccess, if_neg (by simp [h]), if_neg (by simp [hb])]

/-- The instruction accesses `n` bytes at `a` before it does anything else: it stops where the access is not in
order. -/
def AccessesFirst (i : Instr) (s : State) (a : Word) (n : Nat) : Prop :=
  ∀ f, s.checkAccess a n = .error f → exec i s = .fault f

theorem AccessesFirst.stops {a : Word} {n : Nat} (h : AccessesFirst i s a n) :
    (a.toNat % n ≠ 0 → exec i s = .fault .misalignedAccess) ∧
      (a.toNat % n = 0 → s.backedAll a n = false → exec i s = .fault .accessRefused) :=
  ⟨fun ha => h _ (State.checkAccess_misaligned ha), fun ha hb => h _ (State.checkAccess_unbacked ha hb)⟩

/-- An instruction that attempts something which begins with the check of the access. -/
theorem AccessesFirst.of_attempt {α : Type} {a : Word} {n : Nat} {x : Except Fault α} {k : α → Result}
    (hexec : exec i s = attempt x k) {rest : Unit → Except Fault α} (hx : x = s.checkAccess a n >>= rest) :
    AccessesFirst i s a n := by
  intro f hf
  rw [hexec, hx, hf]
  rfl

theorem State.pushWord_eq_bind (s : State) (rB : Reg) (v : Word) : s.pushWord rB v =
    s.checkAccess (s.reg rB) 4 >>= fun _ =>
      .ok ((s.storeBytes (s.reg rB) (wordBytes v)).setReg rB (s.reg rB - 4#32)) := by
  unfold State.pushWord State.writeWord
  cases s.checkAccess (s.reg rB) 4 <;> rfl

theorem State.popWord_eq_bind (s : State) (rB : Reg) : ∃ rest, s.popWord rB =
    s.checkAccess (s.reg rB + 4#32) 4 >>= rest := by
  unfold State.popWord State.readWord
  exact ⟨_, bind_assoc _ _ _⟩

end Sys2Proof.Machine

open Sys2Proof Sys2Proof.Machine

/-- Settles O46: both pushes are one stack operation, and a register pushed through itself is skipped. -/
theorem pushStoresThenDecrements : Obligations.PushStoresThenDecrements := by
  intro s rA rB k
  refine ⟨fun ha hb => ⟨fun hne => ?general, ?special⟩, ?self⟩
  case general => exact exists_of_exec_push (exec_push_of_ne s hne) ha hb
  case special => exact exists_of_exec_push (exec_pushS s k rB) ha hb
  case self => rw [exec_push_self, completed_eq_retire]

/-- Settles O47: both pops are one stack operation, and a register popped through itself is skipped. -/
theorem popIncrementsThenLoads : Obligations.PopIncrementsThenLoads := by
  intro s rA rB k
  refine ⟨fun v hv => ⟨fun hne => ?general, ?special⟩, ?self⟩
  case general => rw [exec_pop_of_ne s hne, attempt_of_ok (State.popWord_of hv)]; rfl
  case special => rw [exec_popS, attempt_of_ok (State.popWord_of hv), completed_eq_retire]; rfl
  case self => rw [exec_pop_self, completed_eq_retire]

/-- Settles O48: the pop reads at the address where the push stored. -/
theorem popUndoesPush : Obligations.PopUndoesPush := by
  intro s rA rC rB hA hC ha hb
  obtain ⟨t, push_next, word, -, ht⟩ := exists_of_exec_push (exec_push_of_ne s hA) ha hb
  have regs : t.regs = s.regs.write rB (s.reg rB - 4#32) := by rw [ht]; rfl
  have pointer : t.reg rB + 4#32 = s.reg rB := by
    rw [State.reg, regs, Regs.read_write_self, BitVec.sub_add_cancel]
  have pop_next := ((popIncrementsThenLoads t rC rB .flags).1 (s.reg rA) (pointer ▸ word)).1 hC
  refine ⟨t, _, push_next, pop_next, ?value, ?restored, fun q hq => ?other⟩
  case value => exact Regs.read_write_self _ _ _
  case restored =>
    refine (Regs.read_write_of_ne _ _ hC.symm).trans ?_
    rw [Regs.read_write_self, pointer]
  case other =>
    refine (Regs.read_write_of_ne _ _ hq).trans ?_
    rw [Regs.read_write, regs, Regs.read_write, pointer]
    split
    · next h => rw [h]
    · rfl

/-- Settles O53: the extensions are those of the number that was read. -/
theorem narrowLoads : Obligations.NarrowLoads := by
  intro s rA rB
  refine ⟨fun b hb => ⟨?ldub, ?ldsb⟩, fun h hh => ⟨?lduh, ?ldsh⟩⟩
  case ldub => exact exec_of_load (exec_ldub s rA rB) hb (zeroExtend_eq_ofNat b)
  case ldsb => exact exec_of_load (exec_ldsb s rA rB) hb rfl
  case lduh => exact exec_of_load (exec_lduh s rA rB) hh (zeroExtend_eq_ofNat h)
  case ldsh => exact exec_of_load (exec_ldsh s rA rB) hh rfl

/-- Settles O54: one byte, and two bytes the more significant first. -/
theorem narrowStores : Obligations.NarrowStores := by
  intro s rA rB
  refine ⟨fun hb => ?stb, fun ha hb => ?sth⟩
  case stb => exact exists_of_exec_storeByte (exec_stb s rA rB) hb
  case sth =>
    have stored := exists_of_exec_storeHalf (exec_sth s rA rB) ha hb
    rwa [extractLsb'_extractLsb' (s.reg rA) (by decide), extractLsb'_extractLsb' (s.reg rA) (by decide)] at stored

/-- Settles O55: both at the address that `wordEa` names. -/
theorem wordLoadAndStore : Obligations.WordLoadAndStore := by
  intro s rA rB imm
  refine ⟨rfl, rfl, fun v hv => ?ldr, fun ha hb => ?str⟩
  case ldr => exact exec_of_load (f := id) (exec_ldr s rA rB imm) hv rfl
  case str => exact exists_of_exec_storeWord (exec_str s rA rB imm) ha hb

/-- Settles O56, row by row: each of the twelve checks its access before anything else. -/
theorem dataAccessStops : Obligations.DataAccessStops := by
  intro s rA rB rC imm k hne
  obtain ⟨_, pop⟩ := State.popWord_eq_bind s rB
  simp only [List.forall_mem_cons, List.not_mem_nil, false_implies, implies_true, and_true]
  refine ⟨?ldub, ?ldsb, ?stb, ?lduh, ?ldsh, ?sth, ?ldr, ?str, ?push, ?pop, ?pushS, ?popS⟩
  case ldub => exact (AccessesFirst.of_attempt (exec_ldub s rA rB) rfl).stops
  case ldsb => exact (AccessesFirst.of_attempt (exec_ldsb s rA rB) rfl).stops
  case stb => exact (AccessesFirst.of_attempt (exec_stb s rA rB) rfl).stops
  case lduh => exact (AccessesFirst.of_attempt (exec_lduh s rA rB) rfl).stops
  case ldsh => exact (AccessesFirst.of_attempt (exec_ldsh s rA rB) rfl).stops
  case sth => exact (AccessesFirst.of_attempt (exec_sth s rA rB) rfl).stops
  case ldr => exact (AccessesFirst.of_attempt (exec_ldr s rA rB imm) rfl).stops
  case str => exact (AccessesFirst.of_attempt (exec_str s rA rB imm) rfl).stops
  case push => exact (AccessesFirst.of_attempt (exec_push_of_ne s hne) (State.pushWord_eq_bind _ _ _)).stops
  case pop => exact (AccessesFirst.of_attempt (exec_pop_of_ne s hne) pop).stops
  case pushS => exact (AccessesFirst.of_attempt (exec_pushS s k rB) (State.pushWord_eq_bind _ _ _)).stops
  case popS => exact (AccessesFirst.of_attempt (exec_popS s k rB) pop).stops

end
